-- ==== Sys2Proof/Word.lean ====
section
/-! DEFINITION. The plain data words of the KW-48: day numbers, the elapsed-second counter, the sets the manual lays out
bit by bit, and the keyed tables. Nothing here computes more than a membership or a wrap. -/

namespace Sys2Proof

/-- One byte of a command-port or building-link frame (11.7). -/
abbrev Byte := BitVec 8

/-- A day number, 0 to 65 535, the day after 65 535 being day 0 (3.3). -/
abbrev Day := BitVec 16

/-- A value of the elapsed-second counter, 0 to 4 294 967 295 (R2). -/
abbrev Counter := BitVec 32

/-- A set of zones: zone n is bit n (Table 11-3, zone set). -/
abbrev ZoneSet := BitVec 64

/-- A set of cycle days 0 to 7 (Table 11-3, set of 8 members). -/
abbrev CycleMask := BitVec 8

/-- A set of buildings 0 to 7 (Table 11-3, set of 8 members). -/
abbrev BuildingSet := BitVec 8

/-- A set of patterns 0 to 15 (Table 11-3, set of 16 members). -/
abbrev PatternSet := BitVec 16

/-- A set of the eleven attention classes, class k being bit k (R169, Table 11-3). -/
abbrev ClassSet := BitVec 11

/-- A table keyed by number: the held records in rising order of their keys. -/
abbrev Table (α : Type) := List (Nat × α)

end Sys2Proof
end

