-- ==== Sys2Proof/Syntax.lean ====
section
/-! DEFINITION. The commands of the KW-48: one constructor of `Instr` for each row of spec/opcode_table.json, and the operands
they carry. A request's operands are the fields of its frame as decoded (R165 to R167, 11.7); an event's operands are what the
outside brings with it (a pin's level, a report, the line or zone or record whose moment has come). -/

namespace Sys2Proof

/-- LRATE, the building-link rate strap (R154). -/
inductive LinkRate
  | kbit250
  | mbit1
  deriving DecidableEq, Repr

/-- The strap inputs as they stand at a release (R154): UNITS, three pins; LRATE; PPOL, true when the PANEL line is active high. -/
structure Straps where
  units : Fin 8
  rate : LinkRate
  panelActiveHigh : Bool
  deriving DecidableEq, Repr

/-- The polarity of a clock-line pulse (R70). -/
inductive Polarity
  | a
  | b
  deriving DecidableEq, Repr

/-- The start byte of a NEXT key (Table 11-3): the key that follows; from the start; from the start of the plan (ENTRY alone). -/
inductive NextStart
  | given
  | fromStart
  | fromPlan
  deriving DecidableEq, Repr

/-- What a malformed request frame is answered with (R165): its request code as received, 0 when it was too short to hold one, and the bytes of
its key as received, where a record request's frame holds it (R166). -/
structure MalformedFrame where
  code : Nat
  key : List Byte
  deriving DecidableEq, Repr

/-- One step of a pattern: on-time and off-time in eighths (R44). -/
structure PatternStep where
  on : Nat
  off : Nat
  deriving DecidableEq, Repr

/-- A zone output's forcing threshold: a mode level, or Never (3.5). A request may carry level 0, which R92 clamps to 1. -/
inductive Threshold
  | level (n : Nat)
  | never
  deriving DecidableEq, Repr

/-- The fields that an AMEND of the PLAN table carries beside its key (R35). -/
structure PlanFields where
  division : Nat
  tag : Vector Byte 8
  schoolDay : Bool
  lateLimit : Nat
  deriving DecidableEq, Repr

/-- The fields that an AMEND of the ENTRY table carries beside its key (R39, Table 11-5). The action is carried as its code. -/
structure EntryFields where
  minute : Nat
  second : Nat
  mask : CycleMask
  zones : ZoneSet
  action : Nat
  pattern : Nat
  duration : Nat
  holdable : Bool
  deferLimit : Nat
  validFrom : Option Day
  validUntil : Option Day
  deriving DecidableEq, Repr

/-- The kind of an override with the plan and cycle day the kind requires (R22); `other` is a kind that is not one of the three. -/
inductive OverrideFields
  | plan (p : Nat)
  | planSet (p n : Nat)
  | noSchool
  | other (code : Nat)
  deriving DecidableEq, Repr

/-- The fields that an AMEND of the SHIFT table carries beside its key (R14). -/
structure ShiftFields where
  minute : Nat
  shift : Int
  deriving DecidableEq, Repr

/-- The fields that an AMEND of the ZONE table carries beside its key (R92, Table 11-5). U, L and W are `none` when marked "default". -/
structure ZoneFields where
  building : Nat
  division : Nat
  kind : Nat
  callSwitch : Bool
  alertPattern : Nat
  alertDuration : Nat
  bellThreshold : Threshold
  speakerThreshold : Threshold
  auxThreshold : Threshold
  bellForced : Bool
  speakerForced : Bool
  auxForced : Bool
  upper : Option Nat
  lower : Option Nat
  window : Option Nat
  deriving DecidableEq, Repr

/-- The fields that an AMEND of the LINE table carries beside its key (R85). -/
structure LineFields where
  kind : Nat
  hold : Nat
  fast : Nat
  width : Nat
  deriving DecidableEq, Repr

/-- The fields that an AMEND of the PROGRAM table carries beside its key (R141, Table 9-3). -/
structure ProgramFields where
  zones : ZoneSet
  tone : Nat
  sounding : Nat
  target : Nat
  deadline : Nat
  muster : BuildingSet
  allClear : Nat
  allClearDuration : Nat
  deriving DecidableEq, Repr

/-- The fields that an AMEND of the DIVISION table carries beside its key (R20). A map entry is `none` for NONE. -/
structure DivisionFields where
  map : Vector (Option Nat) 7
  cycleLength : Nat
  deriving DecidableEq, Repr

/-- The fields that an AMEND of the SITE table carries (R19, R136). -/
structure SiteFields where
  epochWeekday : Nat
  keyEnable : Bool
  clearWindows : Nat
  alarmProgram : Nat
  deriving DecidableEq, Repr

/-- The fields of ANNOUNCE (R109). A maximum duration of 0 means unlimited. -/
structure AnnounceFields where
  source : Nat
  priority : Nat
  coverage : Nat
  zones : ZoneSet
  maxDuration : Nat
  waitLimit : Nat
  talkBack : Bool
  deriving DecidableEq, Repr

/-- What a report carries for one zone number (R159). -/
structure ZoneReport where
  zone : Nat
  count : Nat
  level : Bool
  deriving DecidableEq, Repr

/-- A report from a building unit, as decoded from its frame (R159, Table 11-6). -/
structure Report where
  address : Nat
  zones : List ZoneReport
  clear : Bool
  ampFault : Bool
  echo : Option Nat
  deriving DecidableEq, Repr

/-- The commands: one constructor for each row of spec/opcode_table.json, in the table's order. -/
inductive Instr
  /-- POWER_ON_RESET (R1), with the straps sampled at its release. -/
  | powerOnReset (straps : Straps)
  /-- SYSTEM_RESET_ASSERT (R105). -/
  | systemResetAssert
  /-- SYSTEM_RESET_RELEASE (R162), with the straps sampled at it. -/
  | systemResetRelease (straps : Straps)
  /-- TICK (R2), with the level of the PANEL line (true is high) and of the KEY line (true is active) in this tick. -/
  | tick (panel key : Bool)
  /-- SECOND_BOUNDARY (R3). -/
  | secondBoundary
  /-- REF_PULSE (R11). -/
  | refPulse
  /-- REFERENCE_LOSS (R13). -/
  | referenceLoss
  /-- SET_TIME (R9). -/
  | setTime (day : Day) (second : Nat) (offset : Option Int)
  /-- TIME_REFERENCE (R10). -/
  | timeReference (day : Day) (second : Nat)
  /-- SET_BASE_MODE (R134). -/
  | setBaseMode (mode : Nat)
  /-- ANNOUNCE (R109). -/
  | announce (fields : AnnounceFields)
  /-- RELEASE (R120). -/
  | release (record : Nat)
  /-- ANSWER_CALL (R129). -/
  | answerCall (zone : Nat)
  /-- CLEAR_CALL (R132). -/
  | clearCall (zone : Nat)
  /-- START_DRILL (R144). -/
  | startDrill (program : Nat)
  /-- SILENCE (R146). -/
  | silence
  /-- ALL_CLEAR (R149). -/
  | allClear
  /-- MARK_BUILDING (R147). -/
  | markBuilding (building : Nat)
  /-- LINE_CONTROL_RUN (R82). -/
  | lineControlRun (line : Nat)
  /-- LINE_CONTROL_STOP (R83). -/
  | lineControlStop (line : Nat)
  /-- LINE_CONTROL_SET_POSITION (R84). -/
  | lineControlSetPosition (line position : Nat) (polarity : Option Polarity)
  /-- READ_STATUS (R168). -/
  | readStatus
  /-- ATTENTION (R170). -/
  | attention (clear : ClassSet) (enable : Option ClassSet)
  /-- MALFORMED_REQUEST (R165). -/
  | malformedRequest (received : MalformedFrame)
  /-- REQUEST_FRAME_DISCARDED (R163). -/
  | requestFrameDiscarded
  /-- READ_FRAME (R164), with the number of bytes clocked after the kind byte. -/
  | readFrame (clocked : Nat)
  /-- LOOKUP_PLAN (R34). -/
  | lookupPlan (plan : Nat)
  /-- AMEND_PLAN (R35). -/
  | amendPlan (plan : Nat) (fields : PlanFields)
  /-- RETIRE_PLAN (R36). -/
  | retirePlan (plan : Nat)
  /-- NEXT_PLAN (R36). -/
  | nextPlan (start : NextStart) (plan : Nat)
  /-- LOOKUP_ENTRY (R38). -/
  | lookupEntry (plan tag : Nat)
  /-- AMEND_ENTRY (R39). -/
  | amendEntry (plan tag : Nat) (fields : EntryFields)
  /-- RETIRE_ENTRY (R41). -/
  | retireEntry (plan tag : Nat)
  /-- NEXT_ENTRY (R38). -/
  | nextEntry (start : NextStart) (plan tag : Nat)
  /-- LOOKUP_OVERRIDE (R23). -/
  | lookupOverride (division : Nat) (day : Day)
  /-- AMEND_OVERRIDE (R22). -/
  | amendOverride (division : Nat) (day : Day) (fields : OverrideFields)
  /-- RETIRE_OVERRIDE (R23). -/
  | retireOverride (division : Nat) (day : Day)
  /-- NEXT_OVERRIDE (R23). -/
  | nextOverride (start : NextStart) (division : Nat) (day : Day)
  /-- LOOKUP_SHIFT (R14). -/
  | lookupShift (day : Day)
  /-- AMEND_SHIFT (R14). -/
  | amendShift (day : Day) (fields : ShiftFields)
  /-- RETIRE_SHIFT (R14). -/
  | retireShift (day : Day)
  /-- NEXT_SHIFT (R14). -/
  | nextShift (start : NextStart) (day : Day)
  /-- LOOKUP_PATTERN (R44). -/
  | lookupPattern (pattern : Nat)
  /-- AMEND_PATTERN (R45). -/
  | amendPattern (pattern : Nat) (steps : List PatternStep)
  /-- RETIRE_PATTERN (R46). -/
  | retirePattern (pattern : Nat)
  /-- NEXT_PATTERN (R44). -/
  | nextPattern (start : NextStart) (pattern : Nat)
  /-- LOOKUP_ZONE (R94). -/
  | lookupZone (zone : Nat)
  /-- AMEND_ZONE (R92). -/
  | amendZone (zone : Nat) (fields : ZoneFields)
  /-- RETIRE_ZONE (R94). -/
  | retireZone (zone : Nat)
  /-- NEXT_ZONE (R94). -/
  | nextZone (start : NextStart) (zone : Nat)
  /-- LOOKUP_BUILDING (R161). -/
  | lookupBuilding (building : Nat)
  /-- NEXT_BUILDING (R161). -/
  | nextBuilding (start : NextStart) (building : Nat)
  /-- AMEND_LINE (R85). -/
  | amendLine (line : Nat) (fields : LineFields)
  /-- LOOKUP_LINE (R86). -/
  | lookupLine (line : Nat)
  /-- NEXT_LINE (R86). -/
  | nextLine (start : NextStart) (line : Nat)
  /-- AMEND_PROGRAM (R141). -/
  | amendProgram (program : Nat) (fields : ProgramFields)
  /-- RETIRE_PROGRAM (R142). -/
  | retireProgram (program : Nat)
  /-- LOOKUP_PROGRAM (R142). -/
  | lookupProgram (program : Nat)
  /-- NEXT_PROGRAM (R142). -/
  | nextProgram (start : NextStart) (program : Nat)
  /-- AMEND_DIVISION (R20). -/
  | amendDivision (division : Nat) (fields : DivisionFields)
  /-- LOOKUP_DIVISION (R18). -/
  | lookupDivision (division : Nat)
  /-- NEXT_DIVISION (R166). -/
  | nextDivision (start : NextStart) (division : Nat)
  /-- AMEND_SITE (R19). -/
  | amendSite (fields : SiteFields)
  /-- LOOKUP_SITE (R166). -/
  | lookupSite
  /-- LOOKUP_ANNOUNCEMENT (R122). -/
  | lookupAnnouncement (record : Nat)
  /-- RETIRE_ANNOUNCEMENT (R121). -/
  | retireAnnouncement (record : Nat)
  /-- NEXT_ANNOUNCEMENT (R122). -/
  | nextAnnouncement (start : NextStart) (record : Nat)
  /-- LOOKUP_CALL (R133). -/
  | lookupCall (zone : Nat)
  /-- RETIRE_CALL (R132). -/
  | retireCall (zone : Nat)
  /-- NEXT_CALL (R133). -/
  | nextCall (start : NextStart) (zone : Nat)
  /-- MAXIMUM_DURATION_EXPIRY (R116): all the records whose intervals have expired. -/
  | maximumDurationExpiry
  /-- WAIT_DEADLINE_EXPIRY (R117) of one record. -/
  | waitDeadlineExpiry (record : Nat)
  /-- AUTOMATIC_RETIREMENT (R118) of one record. -/
  | automaticRetirement (record : Nat)
  /-- DEFERRAL_DEADLINE_EXPIRY (R59) on one zone. -/
  | deferralDeadlineExpiry (zone : Nat)
  /-- SOUNDING_END (R55) on one zone. -/
  | soundingEnd (zone : Nat)
  /-- EVACUATION_TONE_END (R146). -/
  | evacuationToneEnd
  /-- ALL_CLEAR_TONE_END (R149). -/
  | allClearToneEnd
  /-- EVACUATION_TARGET_EXPIRY (R148). -/
  | evacuationTargetExpiry
  /-- MUSTER_DEADLINE_EXPIRY (R148). -/
  | musterDeadlineExpiry
  /-- PULSE_START (R72): one grant of the driver-slot arbiter. -/
  | pulseStart
  /-- PULSE_COMPLETION (R71) on one line. -/
  | pulseCompletion (line : Nat)
  /-- FAST_PULSE_WAIT (R79) on one line. -/
  | fastPulseWait (line : Nat)
  /-- LINE_FAULT (R81) on one line, with what its two senses read. -/
  | lineFault (line : Nat) (overcurrent openCircuit : Bool)
  /-- CODED_FRAME_END (R88) on one line. -/
  | codedFrameEnd (line : Nat)
  /-- PANEL_WINDOW_END (R137). -/
  | panelWindowEnd
  /-- KEY_SHORT_PRESS (R139). -/
  | keyShortPress
  /-- KEY_LONG_PRESS (R139). -/
  | keyLongPress
  /-- POLL (R156): the ordinary slot's poll. -/
  | poll
  /-- PROBE (R156): the probe slot's probe. -/
  | probe
  /-- GOOD_REPORT (R158), with the report received. -/
  | goodReport (report : Report)
  /-- RESPONSE_MISS (R157). -/
  | responseMiss
  deriving DecidableEq, Repr

end Sys2Proof
end

