-- ==== Sys2Proof/Machine/State.lean ====
section
/-! DEFINITION. The state of the KW-48: every item of state the manual gives each of its blocks, as plain data, grouped by the
block that owns it, and `State.reset`, the part right after power-on reset. -/

namespace Sys2Proof.Machine

/-! ### Time Base (Table 1-1) -/

/-- The reference state (Table 1-1). -/
inductive RefState
  | absent
  | locked
  | slewing
  deriving DecidableEq, Repr

/-- A label of a REF pulse: a standard day and second (R10). -/
structure Label where
  day : Day
  second : Nat
  deriving DecidableEq, Repr

/-- A time-shift record (1.8), keyed by its day. -/
structure ShiftRecord where
  day : Day
  minute : Nat
  shift : Int
  deriving DecidableEq, Repr

/-- The Time Base (Table 1-1). `elapsedTicks` stands at `secondLength` from the tick that ends a second until that tick's
SECOND_BOUNDARY is taken. `shifts` is in the order of their days' forward distance from today. -/
structure TimeBase where
  elapsedTicks : Nat
  secondLength : Nat
  stdSecond : Nat
  stdDay : Day
  offset : Int
  valid : Bool
  refState : RefState
  residual : Int
  pendingLabel : Option Label
  lastLabel : Option Label
  pulseAge : Nat
  counter : Counter
  shifts : List ShiftRecord
  deriving DecidableEq, Repr

/-- A civil day and civil second-of-day (R5). -/
structure CivilTime where
  day : Day
  second : Nat
  deriving DecidableEq, Repr

/-- A recorded civil time: civil day and second-of-day with the valid flag as it stood (R16, Table 11-3). -/
structure CivilStamp where
  day : Day
  second : Nat
  valid : Bool
  deriving DecidableEq, Repr

/-- A time snapshot (R16, Table 11-7). -/
structure Snapshot where
  stdDay : Day
  stdSecond : Nat
  tick : Nat
  civilDay : Day
  civilSecond : Nat
  civilMinute : Nat
  offset : Int
  valid : Bool
  refState : RefState
  residual : Int
  labelPending : Bool
  counter : Counter
  deriving DecidableEq, Repr

/-! ### Calendar Unit and Bell Dispatcher (Tables 2-1 and 4-1) -/

/-- The evaluation mark (R50): "start", or a civil second. -/
inductive Mark
  | start
  | at (second : Nat)
  deriving DecidableEq, Repr

/-- A division record (Table 2-1). A plan of `none` is NONE. -/
structure Division where
  map : Vector (Option Nat) 7
  cycleLength : Nat
  lastCycle : Option Nat
  previousCycle : Option Nat
  lastCounted : Option Day
  todayPlan : Option Nat
  schoolDay : Bool
  todayCycle : Option Nat
  missed : Nat
  suppressed : Nat
  mark : Mark
  deriving DecidableEq, Repr

/-- What an override does to its day (2.3). -/
inductive OverrideKind
  | plan (p : Nat)
  | planSet (p n : Nat)
  | noSchool
  deriving DecidableEq, Repr

/-- A day override (R21), keyed by its division and day. -/
structure Override where
  division : Nat
  day : Day
  kind : OverrideKind
  deriving DecidableEq, Repr

/-- The site record (R19, R136). -/
structure Site where
  epochWeekday : Nat
  keyEnable : Bool
  clearWindows : Nat
  alarmProgram : Nat
  deriving DecidableEq, Repr

/-- The Calendar Unit (R18, R21). `today` is none until the first resolution. `overrides` is in the order of R21. -/
structure Calendar where
  today : Option Day
  divisions : Vector Division 4
  overrides : List Override
  site : Site
  deriving DecidableEq, Repr

/-- The Dispatcher's working copy of a division's latest resolution notice (R50, Table 4-1). -/
structure DispatchCopy where
  plan : Option Nat
  cycle : Option Nat
  deriving DecidableEq, Repr

/-! ### Schedule Store (Tables 3-1 and 3-2, R44) -/

/-- A plan record (Table 3-1), its number being its key. -/
structure Plan where
  division : Nat
  tag : Vector Byte 8
  schoolDay : Bool
  lateLimit : Nat
  entryCount : Nat
  deriving DecidableEq, Repr

/-- The action of a bell entry, with the fields that only a Bell has (R37). -/
inductive Action
  | bell (pattern duration : Nat) (holdable : Bool) (deferLimit : Nat)
  | auxOn
  | auxOff
  deriving DecidableEq, Repr

/-- A bell entry (Table 3-2), keyed by plan and tag; its due second is formed from minute and second (R37). -/
structure Entry where
  plan : Nat
  tag : Nat
  minute : Nat
  second : Nat
  mask : CycleMask
  zones : ZoneSet
  action : Action
  validFrom : Option Day
  validUntil : Option Day
  deriving DecidableEq, Repr

/-- A pattern (R44), its number being its key. -/
structure Pattern where
  steps : List PatternStep
  refs : Nat
  deriving DecidableEq, Repr

/-- The Schedule Store (R33). `entries` is in the order of R38: by plan, then due second, then tag. -/
structure Store where
  plans : Table Plan
  entries : List Entry
  patterns : Table Pattern
  deriving DecidableEq, Repr

/-! ### Zone Table (Tables 6-1 and 6-2) -/

/-- The kind of a zone (Table 6-1). -/
inductive ZoneKind
  | room
  | corridor
  | outdoor
  | assembly
  deriving DecidableEq, Repr

/-- A zone's bell record (R50, 4.3). A Sounding record's ticks stand at 0 from the tick they run out until that tick's
SOUNDING_END. A Deferred record's deadline is an interval on the elapsed-second counter: its start and its length. -/
inductive BellRecord
  | idle
  | sounding (pattern duration ticks tag : Nat)
  | deferred (pattern duration : Nat) (start : Counter) (length : Nat)
  deriving DecidableEq, Repr

/-- A zone's speaker claim: the announcement that holds it, its bus and its talk-back flag (Table 6-2). -/
structure Claim where
  record : Nat
  bus : Nat
  talkBack : Bool
  deriving DecidableEq, Repr

/-- A zone's configuration (Table 6-1), the zone number being its key. -/
structure ZoneConfig where
  building : Nat
  division : Nat
  kind : ZoneKind
  callSwitch : Bool
  alertPattern : Nat
  alertDuration : Nat
  bellThreshold : Threshold
  speakerThreshold : Threshold
  auxThreshold : Threshold
  bellForced : Bool
  speakerForced : Bool
  auxForced : Bool
  upper : Nat
  lower : Nat
  window : Nat
  deriving DecidableEq, Repr

/-- The path state (Table 6-2). -/
inductive PathState
  | good
  | degraded
  deriving DecidableEq, Repr

/-- A zone record: its configuration and its live fields (Table 6-2). -/
structure Zone where
  config : ZoneConfig
  path : PathState
  accumulator : Nat
  reports : Nat
  firstWindow : Bool
  alertDone : Bool
  bell : BellRecord
  tagCounter : Nat
  aux : Bool
  claim : Option Claim
  deriving DecidableEq, Repr

/-! ### Announcement Arbiter (R106, Table 7-1) and Call List (Table 8-1) -/

/-- The priority of an announcement (Table 7-1), in rising order. -/
inductive Priority
  | routine
  | office
  | urgent
  | emergency
  deriving DecidableEq, Repr

/-- The coverage of an announcement (Table 7-1). -/
inductive Coverage
  | all
  | any
  deriving DecidableEq, Repr

/-- Why a record ended (Table 7-1). -/
inductive EndReason
  | released
  | expired
  | preempted
  | modeEnded
  | waitExpired
  | zonesLost
  deriving DecidableEq, Repr

/-- The state of an announcement record, with the fields that only that state has (Table 7-1). -/
inductive AnnState
  | waiting
  | active (bus : Nat)
  | ended (reason : EndReason) (atSecond : Counter) (atCivil : CivilStamp)
  deriving DecidableEq, Repr

/-- An announcement record (Table 7-1), its slot being its key. A maximum duration of `none` is unlimited. -/
structure Announcement where
  source : Nat
  priority : Priority
  coverage : Coverage
  requested : ZoneSet
  held : ZoneSet
  state : AnnState
  arrivalSecond : Counter
  startSecond : Option Counter
  maxDuration : Option Nat
  waitLimit : Nat
  talkBack : Bool
  answering : Option Nat
  deriving DecidableEq, Repr

/-- A bus table entry in use: the announcement on the bus and the source that feeds it (R106). -/
structure BusEntry where
  record : Nat
  source : Nat
  deriving DecidableEq, Repr

/-- The Announcement Arbiter (R106, R108). `arrival` lists the live records' numbers, oldest first: a record's arrival
order number is its place in it. -/
structure Arbiter where
  slots : Table Announcement
  buses : Vector (Option BusEntry) 4
  arrival : List Nat
  deriving DecidableEq, Repr

/-- A call (Table 8-1). -/
structure Call where
  zone : Nat
  firstPress : CivilStamp
  repeats : Nat
  duringEvacuation : Bool
  deriving DecidableEq, Repr

/-- The Call List (R126): the calls, oldest first press first, and the overflow flag. -/
structure CallList where
  calls : List Call
  overflow : Bool
  deriving DecidableEq, Repr

/-! ### Clock Line Driver (Table 5-1) -/

/-- The state of a line together with its kind (R69): Unset, Synced, Holding and Advancing belong to Impulse lines,
Following to Coded lines, Stopped and Faulted to both. -/
inductive LineState
  | unset
  | synced
  | holding
  | advancing
  | following
  | stopped
  | faulted
  deriving DecidableEq, Repr

/-- The kind of a line (Table 5-1). -/
inductive LineKind
  | impulse
  | coded
  deriving DecidableEq, Repr

/-- The fault cause of a line (Table 5-1). -/
inductive FaultCause
  | none
  | overcurrent
  | openCircuit
  deriving DecidableEq, Repr

/-- The owed pulse of a line (Table 5-1). -/
inductive OwedPulse
  | none
  | waiting
  | inProgress (slot : Nat) (polarity : Polarity) (width : Nat)
  deriving DecidableEq, Repr

/-- A coded line's frame in progress: the civil time it carries and the ticks since its boundary (R88). The manual's table
has only "yes or no"; the contents and the ticks are R88's. -/
structure CodedFrame where
  hour : Nat
  minute : Nat
  second : Nat
  ticks : Nat
  deriving DecidableEq, Repr

/-- A line record (Table 5-1). -/
structure Line where
  kind : LineKind
  state : LineState
  position : Nat
  hold : Nat
  fast : Nat
  width : Nat
  polarity : Polarity
  predicted : Nat
  fault : FaultCause
  owed : OwedPulse
  sinceStart : Nat
  frame : Option CodedFrame
  deriving DecidableEq, Repr

/-! ### Mode and Evacuation Controller (Tables 9-1, 9-3, 9-4, 9-5) -/

/-- The campus mode levels, in rising order (Table 0-4). -/
inductive Mode
  | normal
  | quiet
  | hold
  | drill
  | alarm
  deriving DecidableEq, Repr

/-- The panel state (R138). -/
inductive PanelState
  | normal
  | alarm
  deriving DecidableEq, Repr

/-- The key monitor (R139). `released` is Timing in the tick whose inactive sample ended a press before its count reached 48,
until that tick's KEY_SHORT_PRESS; `timing 48` stands until that tick's KEY_LONG_PRESS. -/
inductive KeyMonitor
  | spent
  | ready
  | timing (count : Nat)
  | released (count : Nat)
  deriving DecidableEq, Repr

/-- The kind of an evacuation record (Table 9-4). -/
inductive EvacKind
  | drill
  | alarm
  deriving DecidableEq, Repr

/-- The phase of an evacuation record (9.6). -/
inductive Phase
  | sounding
  | sweep
  | mustered
  | closing
  deriving DecidableEq, Repr

/-- The tone of the evacuation drive (R146). -/
inductive Tone
  | evacuation
  | allClear
  deriving DecidableEq, Repr

/-- The evacuation drive (R146, Table 9-4): its tone, its remaining ticks and the start tag of each driven zone. Its ticks stand
at 0 from the tick they run out until that tick's EVACUATION_TONE_END or ALL_CLEAR_TONE_END. -/
structure Drive where
  tone : Tone
  ticks : Nat
  tags : Table Nat
  deriving DecidableEq, Repr

/-- When a muster building became clear: elapsed seconds and the clear-manual flag (Table 9-4). -/
structure ClearMark where
  second : Nat
  manual : Bool
  deriving DecidableEq, Repr

/-- The result of an evacuation (Table 9-5). -/
inductive EvacResult
  | completed
  | endedEarly
  | superseded
  | interrupted
  deriving DecidableEq, Repr

/-- The evacuation record (Table 9-4). -/
structure EvacRecord where
  kind : EvacKind
  program : Option Nat
  startSecond : Counter
  startCivil : CivilStamp
  phase : Phase
  drive : Option Drive
  clears : Vector (Option ClearMark) 8
  musteredAt : Option Nat
  overdue : Bool
  musterLate : Bool
  ampFaults : BuildingSet
  panelCleared : Bool
  fixedResult : Option EvacResult
  deriving DecidableEq, Repr

/-- The last result of a drill program (Table 9-5). -/
structure LastResult where
  kind : EvacKind
  startCivil : CivilStamp
  endCivil : CivilStamp
  result : EvacResult
  overdue : Bool
  musterLate : Bool
  musteredAt : Option Nat
  clears : Vector (Option ClearMark) 8
  ampFaults : BuildingSet
  deriving DecidableEq, Repr

/-- A drill program (Table 9-3), its number being its key. -/
structure Program where
  fields : ProgramFields
  lastResult : Option LastResult
  deriving DecidableEq, Repr

/-- The Mode and Evacuation Controller (Table 9-1). `windowTicks` stands at 32 from a window's last tick until that tick's
PANEL_WINDOW_END. `sampled` says that the first sample after the last release has been taken (R137). -/
structure ModeControl where
  base : Mode
  effective : Mode
  panel : PanelState
  windowTicks : Nat
  edges : Nat
  lastSample : Bool
  sampled : Bool
  alarmRun : Nat
  quietRun : Nat
  key : KeyMonitor
  programs : Table Program
  record : Option EvacRecord
  deriving DecidableEq, Repr

/-! ### Building Link Controller (Table 10-1) -/

/-- The link state of a building unit (Table 10-1). -/
inductive LinkState
  | unknown
  | online
  | lost
  deriving DecidableEq, Repr

/-- The pattern in flight with its amended-since-sent mark (R160). -/
structure InFlight where
  pattern : Nat
  amended : Bool
  deriving DecidableEq, Repr

/-- A building record (Table 10-1); its zone count is the Zone Table's (R91). -/
structure Building where
  present : Bool
  link : LinkState
  misses : Nat
  levelsKnown : Bool
  clearLevel : Bool
  ampFault : Bool
  callLevels : ZoneSet
  eligible : ZoneSet
  pending : PatternSet
  inFlight : Option InFlight
  deriving DecidableEq, Repr

/-- The layer that decided a delivered value (R95). -/
inductive Layer
  | job
  | forced
  | evacuation
  deriving DecidableEq, Repr

/-- A delivered bell value (R96). -/
inductive BellValue
  | off
  | sounding (pattern tag eighths : Nat)
  | steady
  deriving DecidableEq, Repr

/-- A delivered speaker value (R97). -/
inductive SpeakerValue
  | off
  | bus (b : Nat)
  | talkBack (b : Nat)
  deriving DecidableEq, Repr

/-- The delivered values of a zone, each with the layer that decided it (R95). -/
structure Delivered where
  bell : BellValue
  bellLayer : Layer
  speaker : SpeakerValue
  speakerLayer : Layer
  aux : Bool
  auxLayer : Layer
  deriving DecidableEq, Repr

/-- A poll or probe as assembled (R156). -/
structure LinkFrame where
  address : Nat
  day : Day
  second : Nat
  valid : Bool
  mode : Mode
  zones : List (Nat × Delivered)
  pattern : Option (Nat × List PatternStep)
  deriving DecidableEq, Repr

/-- The exchange in progress: the building polled or probed, whose report or miss is awaited (R157). -/
structure Exchange where
  building : Nat
  probe : Bool
  deriving DecidableEq, Repr

/-- The Building Link Controller (R153 to R155). `slotStarted` says that a slot has begun since the last release: the slot counter
is 0 at the first one. `slotOpen` says that the slot of the present tick has not been given yet, so that an exchange still there is one whose own slot has
ended (R157); `lastFrame` is the frame the link driver sent last. -/
structure LinkControl where
  straps : Straps
  buildings : Vector Building 8
  slotCounter : Nat
  slotStarted : Bool
  slotOpen : Bool
  lastPolled : Option Nat
  lastProbed : Option Nat
  exchange : Option Exchange
  lastFrame : Option LinkFrame
  deriving DecidableEq, Repr

/-! ### Command Port (R163, R164) and Attention Unit (R169) -/

/-- The result codes of a reply, in the order of Table 0-5. -/
inductive ResultCode
  | ok
  | clamped
  | notFound
  | range
  | conflict
  | full
  | inUse
  | busy
  | modeRefused
  | sourceBusy
  | panelActive
  | timeInvalid
  | malformed
  deriving DecidableEq, Repr

/-- A record's key in the encoding of its table (R166). -/
inductive Key
  | plan (n : Nat)
  | entry (plan tag : Nat)
  | override (division : Nat) (day : Day)
  | shift (day : Day)
  | pattern (n : Nat)
  | zone (n : Nat)
  | building (n : Nat)
  | line (n : Nat)
  | program (n : Nat)
  | division (n : Nat)
  | site
  | announcement (n : Nat)
  | call (zone : Nat)
  deriving DecidableEq, Repr

/-- What LOOKUP of an announcement returns beside its record (R122). -/
inductive AnnView
  | waiting (place remaining : Nat)
  | active (elapsed : Nat) (remaining : Option Nat) (voiceLive : ZoneSet)
  | ended
  deriving DecidableEq, Repr

/-- The fields of a record in a reply: of an AMEND the record as stored, or of a LOOKUP or NEXT, which adds the fields its own rule lists.
The AMEND of a zone has its configuration alone: Table 11-5 gives the live fields and the delivered values to LOOKUP only. -/
inductive RecordView
  | plan (p : Plan) (today : Option Bool)
  | entry (e : Entry) (due : Nat)
  | override (k : OverrideKind)
  | shift (minute : Nat) (shift : Int)
  | pattern (p : Pattern) (cycleLength : Option Nat)
  | zone (config : ZoneConfig) (live : Option (Zone × Bool × Delivered))
  | building (b : Building) (zoneCount : Nat) (rate : LinkRate) (units : Nat)
  | lineAmended (l : Line)
  | line (l : Line) (targetDistance : Option (Nat × Nat))
  | programAmended (p : Program)
  | program (p : Program) (record : Option (EvacRecord × Nat))
  | divisionAmended (d : Division)
  | division (d : Division) (weekday : Option Nat)
  | site (s : Site)
  | announcement (a : Announcement) (order : Option Nat) (view : AnnView)
  | call (c : Call) (place : Nat) (answering : Option (Nat × AnnState))
  deriving DecidableEq, Repr

/-- The number of clock lines in each state (R168). -/
structure LineCounts where
  unset : Nat
  synced : Nat
  holding : Nat
  advancing : Nat
  following : Nat
  stopped : Nat
  faulted : Nat
  deriving DecidableEq, Repr

/-- What READ STATUS returns (R168). -/
structure StatusView where
  time : Snapshot
  base : Mode
  effective : Mode
  panel : PanelState
  evacuation : Option (EvacKind × Phase)
  plans : Nat
  entries : Nat
  overrides : Nat
  shifts : Nat
  patterns : Nat
  zones : Nat
  programs : Nat
  waiting : Nat
  active : Nat
  ended : Nat
  buses : Vector (Option BusEntry) 4
  calls : Nat
  overflow : Bool
  unknown : Nat
  online : Nat
  lost : Nat
  lines : LineCounts
  status : ClassSet
  enable : ClassSet
  deriving DecidableEq, Repr

/-- The body of a reply (R166, R167). -/
inductive ReplyBody
  | empty
  | key (k : Key)
  | nextKey (start : NextStart) (k : Key)
  | received (key : List Byte)
  | record (k : Key) (r : RecordView)
  | snapshot (t : Snapshot)
  | modes (base effective : Mode)
  | announced (record : Nat) (state : AnnState) (held : ZoneSet)
  | released (state : AnnState)
  | lineRecord (l : Line)
  | evacuation (r : Option (EvacRecord))
  | status (v : StatusView)
  | attention (status enable : ClassSet)
  deriving DecidableEq, Repr

/-- A reply (Table 11-4): the request code echoed, the result code, the request-lost flag as it stood, and the body. -/
structure Reply where
  code : Nat
  result : ResultCode
  lost : Bool
  body : ReplyBody
  deriving DecidableEq, Repr

/-- The reply buffer (R164). -/
inductive ReplyBuffer
  | empty
  | notReady
  | held (r : Reply)
  deriving DecidableEq, Repr

/-- The Command Port (R163, R164). `requestHeld` says that a request frame stands in the request buffer, not yet taken;
`output` lists the bytes the port drove after the kind byte of the last frame, every byte beyond the list being 0: a request frame
drives none but 0 (R163), a read frame what R164 returns (`outputByte`). -/
structure Port where
  requestHeld : Bool
  requestLost : Bool
  reply : ReplyBuffer
  output : List Byte
  deriving DecidableEq, Repr

/-- The Attention Unit: status and enable of the eleven classes (R169). -/
structure Attention where
  status : ClassSet
  enable : ClassSet
  deriving DecidableEq, Repr

/-! ### The whole part -/

/-- The state of the KW-48, block by block. `zoneCounts` is the Zone Table's count for each building (R91); `resetHeld` says that
the RESET pin is asserted; `freeCount` is the model's own count of the free values used (log 3); `pending` is the queue of
commands waiting, first in, first out. -/
structure State where
  time : TimeBase
  cal : Calendar
  dispatch : Vector DispatchCopy 4
  store : Store
  zones : Table Zone
  zoneCounts : Vector Nat 8
  arb : Arbiter
  calls : CallList
  lines : Vector Line 12
  modes : ModeControl
  link : LinkControl
  port : Port
  attn : Attention
  resetHeld : Bool
  freeCount : Nat
  pending : List Instr
  deriving DecidableEq, Repr

/-- No command of this block stops the machine: the manual names no fault of that kind, so there is no constructor. -/
inductive Fault
  deriving DecidableEq, Repr

/-- Why a command has no meaning in this model. -/
inductive Refusal
  /-- Raised by an arm of `exec` for a row that has no meaning yet; safe, since the run stops. No arm does so now. -/
  | notModelled (mnemonic : String)
  deriving DecidableEq, Repr

/-! ### The values after power-on reset -/

/-- Table 1-1, column "After POR". -/
def TimeBase.por : TimeBase :=
  { elapsedTicks := 0, secondLength := 16, stdSecond := 0, stdDay := 0, offset := 0, valid := false, refState := .absent,
    residual := 0, pendingLabel := none, lastLabel := none, pulseAge := 48, counter := 0, shifts := [] }

/-- Table 2-1, column "After POR". -/
def Division.por : Division :=
  { map := Vector.replicate 7 none, cycleLength := 1, lastCycle := none, previousCycle := none, lastCounted := none,
    todayPlan := none, schoolDay := false, todayCycle := none, missed := 0, suppressed := 0, mark := .start }

/-- R19 and R136: the site record after power-on reset. -/
def Site.por : Site := { epochWeekday := 0, keyEnable := false, clearWindows := 5, alarmProgram := 7 }

/-- R18 and R21: the Calendar Unit after power-on reset. -/
def Calendar.por : Calendar :=
  { today := none, divisions := Vector.replicate 4 .por, overrides := [], site := .por }

/-- R33: the plan and entry tables are empty and pattern 0 alone is held, one step on 32 off 0, reference count 0. -/
def Store.por : Store :=
  { plans := [], entries := [], patterns := [(0, { steps := [{ on := 32, off := 0 }], refs := 0 })] }

/-- R125: the Arbiter after power-on reset and at the assertion of a system reset. -/
def Arbiter.por : Arbiter := { slots := [], buses := Vector.replicate 4 none, arrival := [] }

/-- R126: the Call List after power-on reset and at the assertion of a system reset. -/
def CallList.por : CallList := { calls := [], overflow := false }

/-- Table 5-1, column "After POR". -/
def Line.por : Line :=
  { kind := .impulse, state := .unset, position := 0, hold := 65, fast := 2, width := 8, polarity := .a, predicted := 0,
    fault := .none, owed := .none, sinceStart := 240, frame := none }

/-- Table 9-1, column "After POR"; the first sample is awaited (R137). -/
def ModeControl.por : ModeControl :=
  { base := .normal, effective := .normal, panel := .normal, windowTicks := 0, edges := 0, lastSample := false, sampled := false, alarmRun := 0,
    quietRun := 0, key := .spent, programs := [], record := none }

/-- Table 10-1: a building record at a release, with UNITS and the set of the patterns held (R153, R162). -/
def Building.atRelease (units : Nat) (held : PatternSet) (b : Nat) : Building :=
  { present := decide (b ≤ units), link := .unknown, misses := 0, levelsKnown := false, clearLevel := false, ampFault := false,
    callLevels := 0, eligible := 0, pending := if b ≤ units then held else 0, inFlight := none }

/-- R162: the Building Link Controller at a release: no slot given yet, the slot counter 0 and both rotation marks none. -/
def LinkControl.atRelease (straps : Straps) (held : PatternSet) : LinkControl :=
  { straps := straps, buildings := (Vector.range 8).mapIdx (fun b _ => Building.atRelease straps.units.val held b),
    slotCounter := 0, slotStarted := false, slotOpen := false, lastPolled := none, lastProbed := none, exchange := none, lastFrame := none }

/-- R171: the Command Port at either reset. -/
def Port.por : Port := { requestHeld := false, requestLost := false, reply := .empty, output := [] }

/-- R171: the Attention Unit at either reset. -/
def Attention.por : Attention := { status := 0, enable := 0 }

/-- The part right after a power-on reset whose release samples the given straps (R1, R18, R33, R50, R69, R104, R125, R126, R151,
R153, R171). The pattern pending set of each present building holds pattern 0, the one pattern held. -/
def State.por (straps : Straps) : State :=
  { time := .por, cal := .por, dispatch := Vector.replicate 4 { plan := none, cycle := none }, store := .por, zones := [],
    zoneCounts := Vector.replicate 8 0, arb := .por, calls := .por, lines := Vector.replicate 12 .por, modes := .por,
    link := .atRelease straps 1, port := .por, attn := .por, resetHeld := false, freeCount := 0, pending := [] }

/-- The straps of `State.reset`: UNITS 0, LRATE 250 kbit/s, PPOL active high. DESIGN CHOICE (log 1): the manual samples pins whose
levels it does not give. -/
def Straps.default : Straps := { units := 0, rate := .kbit250, panelActiveHigh := true }

/-- The part right after power-on reset. -/
def State.reset : State := State.por Straps.default

end Sys2Proof.Machine
end

