-- ==== Sys2Proof/Machine/Tables.lean ====
section
/-! DEFINITION. The operations on keyed tables, on fixed rows of records and on sets of numbers that every block uses. -/

namespace Sys2Proof

/-! ### Keyed tables: records in rising order of their keys -/

/-- The record held under a key. -/
def Table.get {α : Type} : Table α → Nat → Option α
  | [], _ => none
  | (k', v) :: rest, k => if k' = k then some v else Table.get rest k

/-- Insert the record under its key, or replace the record held there (11.3, AMEND). -/
def Table.insert {α : Type} : Table α → Nat → α → Table α
  | [], k, v => [(k, v)]
  | (k', v') :: rest, k, v =>
    if k < k' then (k, v) :: (k', v') :: rest
    else if k' = k then (k, v) :: rest
    else (k', v') :: Table.insert rest k v

/-- Remove the record held under a key (11.3, RETIRE). -/
def Table.erase {α : Type} (t : Table α) (k : Nat) : Table α := t.filter (fun e => e.1 != k)

/-- Change the record held under a key, where one is held. -/
def Table.modify {α : Type} (t : Table α) (k : Nat) (f : α → α) : Table α :=
  t.map (fun e => if e.1 = k then (e.1, f e.2) else e)

/-- Change every record. -/
def Table.mapAll {α : Type} (t : Table α) (f : Nat → α → α) : Table α := t.map (fun e => (e.1, f e.1 e.2))

/-- The keys held, rising. -/
def Table.keys {α : Type} (t : Table α) : List Nat := t.map (·.1)

/-- The record with the lowest key above the given one (11.3, NEXT). -/
def Table.after {α : Type} (t : Table α) (k : Nat) : Option (Nat × α) := t.find? (fun e => k < e.1)

/-- The record with the lowest key (11.3, NEXT from the start). -/
def Table.first {α : Type} (t : Table α) : Option (Nat × α) := t.head?

/-- The canonical form of a table: keys strictly rising. -/
def Table.Sorted {α : Type} (t : Table α) : Prop := t.Pairwise (fun a b => a.1 < b.1)

/-! ### Lists kept in an order: by the rising value of a key -/

/-- Insert a record at the place its key gives. -/
def insertByKey {α : Type} (key : α → Nat) (x : α) : List α → List α
  | [] => [x]
  | y :: rest => if key x ≤ key y then x :: y :: rest else y :: insertByKey key x rest

/-- The records in the order of their keys. -/
def sortByKey {α : Type} (key : α → Nat) (l : List α) : List α := l.foldr (insertByKey key) []

/-- The record with the least key. -/
def leastByKey {α : Type} (key : α → Nat) (l : List α) : Option α := (sortByKey key l).head?

/-- The record with the least key above the given one. -/
def leastAbove {α : Type} (key : α → Nat) (k : Nat) (l : List α) : Option α := leastByKey key (l.filter (fun x => k < key x))

/-! ### Fixed rows of records -/

/-- Change the record at a place, where the row has that place. -/
def updateAt {α : Type} {n : Nat} (v : Vector α n) (i : Nat) (f : α → α) : Vector α n :=
  match v[i]? with
  | some x => v.setIfInBounds i (f x)
  | none => v

/-- Change every record of a row. -/
def updateAll {α : Type} {n : Nat} (v : Vector α n) (f : Nat → α → α) : Vector α n := v.mapIdx f

/-! ### Sets of numbers -/

/-- Membership. -/
def mem {n : Nat} (s : BitVec n) (i : Nat) : Bool := s.getLsbD i

/-- The set of one member. -/
def single (n i : Nat) : BitVec n := BitVec.ofNat n (2 ^ i)

/-- The set with a member added. -/
def insertMember {n : Nat} (s : BitVec n) (i : Nat) : BitVec n := s ||| single n i

/-- The set with a member removed. -/
def eraseMember {n : Nat} (s : BitVec n) (i : Nat) : BitVec n := s &&& ~~~ (single n i)

/-- The set with a member added or removed. -/
def putMember {n : Nat} (s : BitVec n) (i : Nat) (b : Bool) : BitVec n := if b then insertMember s i else eraseMember s i

/-- The members, rising. -/
def members {n : Nat} (s : BitVec n) : List Nat := (List.range n).filter (fun i => mem s i)

/-- The set of the given numbers. -/
def ofMembers (n : Nat) (l : List Nat) : BitVec n := l.foldl insertMember 0

end Sys2Proof
end

