-- ==== Sys2Proof/Machine/Operands.lean ====
section
/-! DEFINITION. How a request's operands are read: the fields that clamp (3.7), the choices carried as codes (Table 11-3), and what
an entry, a zone, a line, a program or an announcement looks like once its fields have been taken. -/

namespace Sys2Proof.Machine

/-- A field brought into its range (3.7). -/
def clampNat (lo hi n : Nat) : Nat := min hi (max lo n)

/-- A signed field brought into its range (3.7). -/
def clampInt (lo hi n : Int) : Int := min hi (max lo n)

/-- OK, or CLAMPED when some field was brought into range (Table 0-5). -/
def okOrClamped (clamped : Bool) : ResultCode := if clamped then .clamped else .ok

/-- The modes that SET BASE MODE may carry (R134). -/
def baseModeOf : Nat → Option Mode
  | 0 => some .normal
  | 1 => some .quiet
  | 2 => some .hold
  | _ => none

/-- The level of a campus mode (Table 0-4). -/
def Mode.level : Mode → Nat
  | .normal => 0
  | .quiet => 1
  | .hold => 2
  | .drill => 3
  | .alarm => 4

/-- The priority of a code (Table 7-1). -/
def priorityOf : Nat → Option Priority
  | 0 => some .routine
  | 1 => some .office
  | 2 => some .urgent
  | 3 => some .emergency
  | _ => none

/-- The rank of a priority (Table 7-1). -/
def Priority.rank : Priority → Nat
  | .routine => 0
  | .office => 1
  | .urgent => 2
  | .emergency => 3

/-- The coverage of a code: the list ALL, ANY from 0 (Table 11-3). -/
def coverageOf : Nat → Option Coverage
  | 0 => some .all
  | 1 => some .any
  | _ => none

/-- The zone kind of a code: the list of Table 6-1 from 0. -/
def zoneKindOf : Nat → Option ZoneKind
  | 0 => some .room
  | 1 => some .corridor
  | 2 => some .outdoor
  | 3 => some .assembly
  | _ => none

/-- The line kind of a code: the list Impulse, Coded from 0. -/
def lineKindOf : Nat → Option LineKind
  | 0 => some .impulse
  | 1 => some .coded
  | _ => none

/-- The override of its carried fields; a kind that is not one of the three has none (R22). -/
def overrideKindOf : OverrideFields → Option OverrideKind
  | .plan p => some (.plan p)
  | .planSet p n => some (.planSet p n)
  | .noSchool => some .noSchool
  | .other _ => none

/-- The plan that an override of a PLAN kind names. -/
def OverrideKind.planNamed : OverrideKind → Option Nat
  | .plan p => some p
  | .planSet p _ => some p
  | .noSchool => none

/-- The cycle day that an override of the SET kind fixes. -/
def OverrideKind.cycleSet : OverrideKind → Option Nat
  | .planSet _ n => some n
  | _ => none

/-- R37: the due second, formed from the minute and the second. -/
def Entry.due (e : Entry) : Nat := e.minute * 60 + e.second

/-- The pattern that an entry names: a Bell's alone (R48). -/
def Entry.patternNamed (e : Entry) : Option Nat :=
  match e.action with
  | .bell p _ _ _ => some p
  | _ => none

/-- The action of an entry's carried fields, the Bell fields brought into range (R37, R39 step 3). An AuxOn or AuxOff entry keeps none
of the Bell fields. -/
def actionOf (f : EntryFields) : Option Action :=
  match f.action with
  | 0 => some (.bell f.pattern (clampNat 1 30 f.duration) f.holdable (min 120 f.deferLimit))
  | 1 => some .auxOn
  | 2 => some .auxOff
  | _ => none

/-- Whether R39 step 3 brings a field of the entry into range: minute, second, and for a Bell the duration and the defer limit. -/
def entryClamped (f : EntryFields) : Bool :=
  decide (2047 < f.minute) || decide (59 < f.second) ||
    (f.action == 0 && (decide (f.duration < 1) || decide (30 < f.duration) || decide (120 < f.deferLimit)))

/-- The entry that an AMEND stores (R39 step 3, R40). -/
def entryOf (plan tag : Nat) (f : EntryFields) (action : Action) : Entry :=
  { plan := plan, tag := tag, minute := min 2047 f.minute, second := min 59 f.second, mask := f.mask, zones := f.zones,
    action := action, validFrom := f.validFrom, validUntil := f.validUntil }

/-- A pattern step brought into range (R45): an on-time of 1 to 32 eighths, an off-time of at most 32. -/
def clampStep (x : PatternStep) : PatternStep := { on := clampNat 1 32 x.on, off := min 32 x.off }

/-- R44: the cycle length of a pattern. -/
def cycleLengthOf (steps : List PatternStep) : Nat := (steps.map (fun x => x.on + x.off)).sum

/-- A threshold brought into range: level 0 becomes level 1 (R92 step 3); a level above 4 does not arise from a decoded request. -/
def clampThreshold : Threshold → Threshold
  | .level n => .level (clampNat 1 4 n)
  | .never => .never

/-- The value that a U, L or W field gives: the carried number, or the held one, or the default (R92 step 3). -/
def carriedOr (carried : Option Nat) (held : Nat) : Nat := carried.getD held

/-- R92 step 3: the configuration that an AMEND of the ZONE table stores. A carried U is brought into 1 to 255 and a carried W into 8 to
255; L is brought down to U; a field marked "default" keeps the held value, or takes its default in an insertion. A call switch
carried for a kind other than Room is stored as absent. -/
def zoneConfigOf (f : ZoneFields) (kind : ZoneKind) (held : Option ZoneConfig) : ZoneConfig :=
  let upper := match f.upper with
    | some u => clampNat 1 255 u
    | none => (held.map (·.upper)).getD 8
  let lower := min upper (carriedOr f.lower ((held.map (·.lower)).getD 2))
  let window := match f.window with
    | some w => clampNat 8 255 w
    | none => (held.map (·.window)).getD 16
  { building := f.building, division := f.division, kind := kind, callSwitch := f.callSwitch && kind == .room,
    alertPattern := f.alertPattern, alertDuration := clampNat 1 10 f.alertDuration,
    bellThreshold := clampThreshold f.bellThreshold, speakerThreshold := clampThreshold f.speakerThreshold,
    auxThreshold := clampThreshold f.auxThreshold, bellForced := f.bellForced, speakerForced := f.speakerForced,
    auxForced := f.auxForced, upper := upper, lower := lower, window := window }

/-- Whether R92 step 3 brings a field of the zone into range. A held or default L counts only against a newly carried U. -/
def zoneClamped (f : ZoneFields) (held : Option ZoneConfig) : Bool :=
  let upper := match f.upper with
    | some u => clampNat 1 255 u
    | none => (held.map (·.upper)).getD 8
  f.bellThreshold != clampThreshold f.bellThreshold || f.speakerThreshold != clampThreshold f.speakerThreshold ||
    f.auxThreshold != clampThreshold f.auxThreshold || decide (f.alertDuration ≠ clampNat 1 10 f.alertDuration) ||
    (match f.upper with
      | some u => decide (u ≠ clampNat 1 255 u)
      | none => false) ||
    decide (upper < carriedOr f.lower ((held.map (·.lower)).getD 2)) ||
    (match f.window with
      | some w => decide (w ≠ clampNat 8 255 w)
      | none => false)

/-- R141 step 5: the program fields brought into range; the muster deadline is then raised to the target. -/
def clampProgram (f : ProgramFields) : ProgramFields :=
  { f with
    sounding := clampNat 10 600 f.sounding
    target := clampNat 60 3600 f.target
    deadline := max (clampNat 60 3600 f.target) (clampNat 60 3600 f.deadline)
    allClearDuration := clampNat 1 30 f.allClearDuration }

/-- R109 step 6: the stored maximum duration: none is unlimited, which an Emergency request alone keeps; 0 from any other priority, and
anything above 600, becomes 600. -/
def maxDurationOf (p : Priority) (n : Nat) : Option Nat :=
  if n = 0 then (if p = .emergency then none else some 600) else some (min 600 n)

/-- Whether R109 step 6 brings a field into range. -/
def announceClamped (p : Priority) (f : AnnounceFields) : Bool :=
  (f.maxDuration == 0 && p != .emergency) || decide (600 < f.maxDuration) || decide (60 < f.waitLimit)

/-- Whether a field is clamped by its limits. -/
def outside (lo hi n : Nat) : Bool := decide (n < lo) || decide (hi < n)

/-- Whether a signed field is clamped by its limits. -/
def outsideInt (lo hi n : Int) : Bool := decide (n < lo) || decide (hi < n)

end Sys2Proof.Machine
end

