-- ==== Sys2Proof/Machine/Flags.lean ====
section
/-! DEFINITION. The Attention Unit (11.5): the eleven event classes, raising an event, and the ATTN line; and the flags other blocks
read: forcing of an output, the voice-live flag's inputs. -/

namespace Sys2Proof.Machine

/-- The eleven attention classes, in the order of their numbers (11.5). -/
inductive EventClass
  | time
  | calendar
  | bell
  | line
  | zone
  | announce
  | call
  | evac
  | panel
  | link
  | key
  deriving DecidableEq, Repr

/-- The number of a class (11.5). -/
def EventClass.number : EventClass → Nat
  | .time => 0
  | .calendar => 1
  | .bell => 2
  | .line => 3
  | .zone => 4
  | .announce => 5
  | .call => 6
  | .evac => 7
  | .panel => 8
  | .link => 9
  | .key => 10

/-- R169: a raised event sets its class's status, whatever its enable; R171: not while RESET is asserted. -/
def State.raise (s : State) (c : EventClass) : State :=
  if s.resetHeld then s else { s with attn := { s.attn with status := insertMember s.attn.status c.number } }

/-- Raise an event when a condition holds. -/
def State.raiseIf (s : State) (b : Bool) (c : EventClass) : State := if b then s.raise c else s

/-- R169: ATTN is active while at least one class has both its status and its enable set; R171: never while RESET is asserted. -/
def State.attnActive (s : State) : Bool := !s.resetHeld && s.attn.status &&& s.attn.enable != 0

/-- R95: a mode is at or above an output's threshold; Never is never reached. -/
def thresholdReached (t : Threshold) (m : Mode) : Bool :=
  match t with
  | .level n => decide (n ≤ m.level)
  | .never => false

/-- The bell output of a zone is forced (R54, R95). -/
def bellForcedIn (s : State) (z : Zone) : Bool := thresholdReached z.config.bellThreshold s.modes.effective

/-- The speaker output of a zone is forced (R97, R101). -/
def speakerForcedIn (s : State) (z : Zone) : Bool := thresholdReached z.config.speakerThreshold s.modes.effective

/-- The aux output of a zone is forced (R97). -/
def auxForcedIn (s : State) (z : Zone) : Bool := thresholdReached z.config.auxThreshold s.modes.effective

/-- The bell record is Sounding. -/
def BellRecord.isSounding : BellRecord → Bool
  | .sounding .. => true
  | _ => false

/-- The bell record is Deferred. -/
def BellRecord.isDeferred : BellRecord → Bool
  | .deferred .. => true
  | _ => false

/-- R61: a zone is cut in while its bell record is Sounding and an Active announcement holds its speaker. -/
def Zone.cutIn (z : Zone) : Bool := z.bell.isSounding && z.claim.isSome

end Sys2Proof.Machine
end

