-- ==== Sys2Proof/Machine/Ops.lean ====
section
/-! DEFINITION. The named operations over the state that every block uses: day and civil-time arithmetic, snapshots and intervals,
reading and writing one zone, division, line, building or record, and forming a reply. -/

namespace Sys2Proof.Machine

/-! ### Days and civil time -/

/-- 3.3: the forward distance from day a to day b. -/
def forwardDistance (a b : Day) : Nat := (b - a).toNat

/-- 3.3: day a is before day b when its forward distance to it lies between 1 and 32 767. -/
def isBefore (a b : Day) : Bool := decide (1 ≤ forwardDistance a b) && decide (forwardDistance a b ≤ 32767)

/-- R5: civil time from a standard day, a standard second and a civil offset in minutes. -/
def civilOf (d : Day) (s : Nat) (o : Int) : CivilTime :=
  let t : Int := (d.toNat : Int) * 86400 + (s : Int) + o * 60
  let q := t.fdiv 86400
  { day := BitVec.ofInt 16 q, second := (t - q * 86400).toNat }

/-- Civil time as the Time Base now computes it (R5). -/
def TimeBase.civil (t : TimeBase) : CivilTime := civilOf t.stdDay t.stdSecond t.offset

/-- R7: the civil amount from one civil time to another in seconds, the day difference taken from −32 768 to +32 767. -/
def civilAmount (old new : CivilTime) : Int :=
  let k := forwardDistance old.day new.day
  let days : Int := if 32768 ≤ k then (k : Int) - 65536 else (k : Int)
  days * 86400 + (new.second : Int) - (old.second : Int)

/-- R16: a time snapshot; the tick is limited to 15 (1.1). -/
def TimeBase.snapshot (t : TimeBase) : Snapshot :=
  { stdDay := t.stdDay, stdSecond := t.stdSecond, tick := min 15 t.elapsedTicks, civilDay := t.civil.day,
    civilSecond := t.civil.second, civilMinute := t.civil.second / 60, offset := t.offset, valid := t.valid,
    refState := t.refState, residual := t.residual, labelPending := t.pendingLabel.isSome, counter := t.counter }

/-- R16: a civil time recorded from a snapshot, with the valid flag as it stands. -/
def TimeBase.stamp (t : TimeBase) : CivilStamp := { day := t.civil.day, second := t.civil.second, valid := t.valid }

/-- R4: the elapsed time of an interval that started at a counter value. -/
def elapsedSince (s : State) (start : Counter) : Nat := (s.time.counter - start).toNat

/-- R4: an interval has expired once its elapsed time equals or exceeds its length. -/
def intervalExpired (s : State) (start : Counter) (length : Nat) : Bool := decide (length ≤ elapsedSince s start)

/-- The day that distances are measured from: today, or day 0 while today is none and the tables it orders are empty (R18, R23). -/
def State.today (s : State) : Day := s.cal.today.getD 0

/-! ### One zone, division, line, building, record -/

/-- Change one zone record. -/
def State.modifyZone (s : State) (z : Nat) (f : Zone → Zone) : State := { s with zones := s.zones.modify z f }

/-- Change one division record. -/
def State.modifyDivision (s : State) (v : Nat) (f : Division → Division) : State :=
  { s with cal := { s.cal with divisions := updateAt s.cal.divisions v f } }

/-- Change one line record. -/
def State.modifyLine (s : State) (n : Nat) (f : Line → Line) : State := { s with lines := updateAt s.lines n f }

/-- Change one building record. -/
def State.modifyBuilding (s : State) (b : Nat) (f : Building → Building) : State :=
  { s with link := { s.link with buildings := updateAt s.link.buildings b f } }

/-- Change one announcement record. -/
def State.modifyAnnouncement (s : State) (n : Nat) (f : Announcement → Announcement) : State :=
  { s with arb := { s.arb with slots := s.arb.slots.modify n f } }

/-- Write one bus table entry. -/
def State.setBus (s : State) (b : Nat) (e : Option BusEntry) : State :=
  { s with arb := { s.arb with buses := s.arb.buses.setIfInBounds b e } }

/-- The Dispatcher's working copy for a division; NONE and none for a number above 3. -/
def State.dispatchOf (s : State) (v : Nat) : DispatchCopy := s.dispatch[v]?.getD { plan := none, cycle := none }

/-- The evacuation record replaced. -/
def State.setRecord (s : State) (r : Option EvacRecord) : State := { s with modes := { s.modes with record := r } }

/-- Do one thing for each number of a list, in its order. -/
def State.forEach (s : State) (l : List Nat) (f : State → Nat → State) : State := l.foldl f s

/-- The division numbers, rising. -/
def divisionNumbers : List Nat := [0, 1, 2, 3]

/-- The count of zones of a building changed (R91). -/
def State.countZone (s : State) (b : Nat) (f : Nat → Nat) : State := { s with zoneCounts := updateAt s.zoneCounts b f }

/-- The set of the patterns the Schedule Store holds. -/
def Store.held (st : Store) : PatternSet := ofMembers 16 st.patterns.keys

/-! ### Reference counts of patterns (R48) -/

/-- One more record names the pattern. -/
def Store.addRef (st : Store) (p : Nat) : Store :=
  { st with patterns := st.patterns.modify p (fun x => { x with refs := x.refs + 1 }) }

/-- One record fewer names the pattern. -/
def Store.dropRef (st : Store) (p : Nat) : Store :=
  { st with patterns := st.patterns.modify p (fun x => { x with refs := x.refs - 1 }) }

/-- `addRef` for a pattern that may be none. -/
def Store.addRefOf (st : Store) : Option Nat → Store
  | some p => st.addRef p
  | none => st

/-- `dropRef` for a pattern that may be none. -/
def Store.dropRefOf (st : Store) : Option Nat → Store
  | some p => st.dropRef p
  | none => st

/-! ### Outcomes and replies -/

/-- The outcome of a command: a next state. -/
abbrev Result := Host.Outcome State Fault Refusal

/-- R163: a reply is formed. It carries the request-lost flag as it stands and clears it, and the request buffer is free again; the bytes
driven during the request's frame were all 0. -/
def State.formReply (s : State) (code : Nat) (result : ResultCode) (body : ReplyBody) : State :=
  { s with port := { s.port with
      requestHeld := false
      requestLost := false
      output := []
      reply := .held { code := code, result := result, lost := s.port.requestLost, body := body } } }

/-- What an owning block answers to a request: the state after it, the result code and the body of the reply. -/
structure Answer where
  state : State
  result : ResultCode
  body : ReplyBody

/-- A request refused: it changes nothing (3.7, R166). -/
def refuse (s : State) (code : ResultCode) (body : ReplyBody) : Answer := { state := s, result := code, body := body }

/-- R163: a request that decodes is taken whole by its owning block and the reply is formed. R171: while RESET is asserted the port
ignores every frame. -/
def takeRequest (s : State) (code : Nat) (owner : State → Answer) : Result :=
  if s.resetHeld then .next s
  else .next ((owner s).state.formReply code (owner s).result (owner s).body)

/-- An event of the working domain: not taken while RESET is asserted. -/
def takeEvent (s : State) (f : State → State) : Result := if s.resetHeld then .next s else .next (f s)

/-- The request codes (Tables 11-2 and 11-4). -/
def codeLookup : Nat := 1
/-- AMEND. -/
def codeAmend : Nat := 2
/-- RETIRE. -/
def codeRetire : Nat := 3
/-- NEXT. -/
def codeNext : Nat := 4

/-- The numbered record that NEXT finds in a keyed table: the first one, or the one after the given key (11.3). -/
def nextIn {α : Type} (t : Table α) (start : NextStart) (k : Nat) : Option (Nat × α) :=
  match start with
  | .given => t.after k
  | _ => t.first

/-- The next higher number of a fixed row of records, or 0 from the start (R86, R161, R166). -/
def nextNumber (start : NextStart) (k : Nat) : Nat :=
  match start with
  | .given => k + 1
  | _ => 0

/-- A NEXT is given a key, so that the key's own range is checked; from the start its key bytes are ignored (Table 11-3). -/
def isGivenKey : NextStart → Bool
  | .given => true
  | _ => false

/-- LOOKUP of a record (R166): a structural field of the key out of range is refused with RANGE, a key with no record with NOT_FOUND; the
key and the record are returned. -/
def lookupAnswer (s : State) (outOfRange : Bool) (k : Key) (found : Option RecordView) : Answer :=
  if outOfRange then refuse s .range (.key k)
  else match found with
    | some v => { state := s, result := .ok, body := .record k v }
    | none => refuse s .notFound (.key k)

/-- NEXT (R166): the key and the record that follow, or NOT_FOUND; a refusal carries the key as received. -/
def nextAnswer (s : State) (start : NextStart) (outOfRange : Bool) (asked : Key) (found : Option (Key × RecordView)) : Answer :=
  if outOfRange then refuse s .range (.nextKey start asked)
  else match found with
    | some (k, v) => { state := s, result := .ok, body := .record k v }
    | none => refuse s .notFound (.nextKey start asked)

end Sys2Proof.Machine
end

