-- ==== Sys2Proof/Machine/Bells.lean ====
section
/-! DEFINITION. The bell record of a zone (4.3 to 4.6): starting a sounding, deferring, waking, dropping and counting; the aux job
level; and the alert fallback, which sounds through the same record (6.6). -/

namespace Sys2Proof.Machine

/-- R63: a count rises by one and stops at 65 535. -/
def saturatingSucc (n : Nat) : Nat := min 65535 (n + 1)

/-- R63: a bell Missed on a zone of division v. -/
def State.countMissed (s : State) (v : Nat) : State :=
  (s.modifyDivision v (fun d => { d with missed := saturatingSucc d.missed })).raise .bell

/-- R63: a bell Suppressed on a zone of division v. -/
def State.countSuppressed (s : State) (v : Nat) : State :=
  (s.modifyDivision v (fun d => { d with suppressed := saturatingSucc d.suppressed })).raise .bell

/-- R55: the start-tag counter after a start; 15 is followed by 0. -/
def nextTag (n : Nat) : Nat := (n + 1) % 16

/-- R55: a zone record whose bell starts a sounding of a pattern for t seconds. -/
def Zone.startSounding (z : Zone) (pattern t : Nat) : Zone :=
  { z with tagCounter := nextTag z.tagCounter, bell := .sounding pattern t (16 * t) (nextTag z.tagCounter) }

/-- R55: the eighths a record or a drive offers: its remaining ticks divided by two and rounded up. -/
def eighthsOf (ticks : Nat) : Nat := (ticks + 1) / 2

/-- R54: what becomes of a zone's bell record when a Bell entry that is due today is taken on it. -/
inductive BellOutcome
  /-- Case 1: the bell output is forced. -/
  | suppressed
  /-- Case 2: a longer bell replaces the sounding. -/
  | replaces
  /-- Case 2: the sounding goes on unchanged. -/
  | absorbed
  /-- Case 3: the record becomes Deferred for the given number of seconds. -/
  | defers (length : Nat)
  /-- Case 4, and case 3 with a deadline already passed (R57): a sounding starts. -/
  | starts
  deriving DecidableEq, Repr

/-- R54 and R57: the outcome on one zone of a bell with lateness L: forced, sounding, held and holdable, otherwise. -/
def bellOutcome (forced : Bool) (z : Zone) (duration : Nat) (holdable : Bool) (deferLimit late : Nat) : BellOutcome :=
  if forced then .suppressed
  else match z.bell with
    | .sounding _ _ ticks _ => if ticks < 16 * duration then .replaces else .absorbed
    | _ =>
      if holdable && z.claim.isSome then (if late < deferLimit then .defers (deferLimit - late) else .starts)
      else .starts

/-- R54: a Bell entry taken on one zone. A deferral that a new deferral or a new sounding replaces is counted Missed. -/
def State.bellOnZone (s : State) (pattern duration : Nat) (holdable : Bool) (deferLimit late z : Nat) : State :=
  match s.zones.get z with
  | none => s
  | some zone =>
    let replaced := zone.bell.isDeferred
    match bellOutcome (bellForcedIn s zone) zone duration holdable deferLimit late with
    | .suppressed => s.countSuppressed zone.config.division
    | .absorbed => s
    | .replaces => s.modifyZone z (·.startSounding pattern duration)
    | .defers length =>
      let s := if replaced then s.countMissed zone.config.division else s
      s.modifyZone z (fun x => { x with bell := .deferred pattern duration s.time.counter length })
    | .starts =>
      let s := if replaced then s.countMissed zone.config.division else s
      s.modifyZone z (·.startSounding pattern duration)

/-- R63: a Bell entry that the late rule does not ring is Missed on one zone of its set. -/
def State.missOnZone (s : State) (z : Nat) : State :=
  match s.zones.get z with
  | none => s
  | some zone => s.countMissed zone.config.division

/-- R62: an aux entry sets the aux job level of one zone. -/
def State.auxOnZone (s : State) (level : Bool) (z : Nat) : State := s.modifyZone z (fun x => { x with aux := level })

/-- R58: a Deferred record wakes: it starts a full sounding, unless the zone's bell output is forced at that moment, when the bell is
Suppressed and the record becomes Idle. -/
def State.wakeDeferral (s : State) (z : Nat) : State :=
  match s.zones.get z with
  | none => s
  | some zone =>
    match zone.bell with
    | .deferred pattern duration _ _ =>
      if bellForcedIn s zone then
        (s.modifyZone z (fun x => { x with bell := .idle })).countSuppressed zone.config.division
      else s.modifyZone z (·.startSounding pattern duration)
    | _ => s

/-- R60: a deferral on a zone whose bell output has become forced is dropped as Suppressed. -/
def State.dropDeferralIfForced (s : State) (z : Nat) : State :=
  match s.zones.get z with
  | none => s
  | some zone =>
    if zone.bell.isDeferred && bellForcedIn s zone then
      (s.modifyZone z (fun x => { x with bell := .idle })).countSuppressed zone.config.division
    else s

/-- R59: the deadline of a zone's Deferred record has expired. -/
def deferralExpired (s : State) (z : Nat) : Bool :=
  match s.zones.get z with
  | some zone =>
    match zone.bell with
    | .deferred _ _ start length => intervalExpired s start length
    | _ => false
  | none => false

/-- R59: a zone's bell record at its deadline: a Deferred record starts a sounding with its pattern and full duration. -/
def Zone.cutInDeferral (x : Zone) : Zone :=
  match x.bell with
  | .deferred pattern duration _ _ => x.startSounding pattern duration
  | _ => x

/-- R59: the deadline of a zone's deferral, where it has expired while the zone's speaker is held. -/
def State.expireDeferral (s : State) (z : Nat) : State :=
  if deferralExpired s z then s.modifyZone z (fun x => if x.claim.isSome then x.cutInDeferral else x) else s

/-- R102: the alert fallback on a zone: when the alert-done flag is clear and the bell record Idle, the zone's alert pattern sounds for
its alert duration and the flag is set. -/
def State.alertFallback (s : State) (z : Nat) : State :=
  s.modifyZone z (fun x =>
    if !x.alertDone && x.bell == .idle then
      { x.startSounding x.config.alertPattern x.config.alertDuration with alertDone := true }
    else x)

/-- R113 and R103: a claim ends. It becomes none, the alert-done flag is cleared, and a Deferred bell wakes (R58). -/
def State.endClaim (s : State) (z : Nat) : State :=
  (s.modifyZone z (fun x => { x with claim := none, alertDone := false })).wakeDeferral z

/-- R113 and R103: a claim is taken, or passes from another holder: the alert-done flag is cleared and the grant is judged afresh for
the alert fallback (R102). A Deferred bell is not woken by a claim that passes (R58). -/
def State.writeClaim (s : State) (c : Claim) (z : Nat) : State :=
  let s := s.modifyZone z (fun x => { x with claim := some c, alertDone := false })
  match s.zones.get z with
  | some zone => if zone.path = .degraded then s.alertFallback z else s
  | none => s

/-! ### A sounding (R47) -/

/-- R47: whether position q of a pattern's cycle lies within an on-time. -/
def onAtPosition : List PatternStep → Nat → Bool
  | [], _ => false
  | x :: rest, q =>
    if q < x.on then true
    else if q < x.on + x.off then false
    else onAtPosition rest (q - (x.on + x.off))

/-- R47: whether a sounding of a pattern for t seconds is on at e eighths after its start. -/
def soundingOn (steps : List PatternStep) (t e : Nat) : Bool :=
  decide (e < 8 * t) && onAtPosition steps (e % cycleLengthOf steps)

end Sys2Proof.Machine
end

