-- ==== Sys2Proof/Machine/Compose.lean ====
section
/-! DEFINITION. Output composition (6.3): the delivered value of each zone output and the layer that decided it; the voice-live flag
(R101); the source-select groups (R107); and the drive of a clock line (R70). -/

namespace Sys2Proof.Machine

/-- The program that the evacuation record names, where one is held. -/
def recordProgram (s : State) : Option Program :=
  match s.modes.record with
  | some r => r.program.bind s.modes.programs.get
  | none => none

/-- R146: the pattern of a tone: the program's tone pattern or its all-clear pattern. -/
def tonePattern (p : ProgramFields) : Tone → Nat
  | .evacuation => p.tone
  | .allClear => p.allClear

/-- R95, first case: the value that the evacuation drive gives a zone's bell output, when it drives that zone. -/
def evacuationBell (s : State) (z : Nat) : Option BellValue :=
  match s.modes.record, recordProgram s with
  | some r, some p =>
    match r.drive with
    | some d =>
      match d.tags.get z with
      | some tag => some (.sounding (tonePattern p.fields d.tone) tag (eighthsOf d.ticks))
      | none => none
    | none => none
  | _, _ => none

/-- R96: the job drive of a zone's bell output. -/
def bellJob (z : Zone) : BellValue :=
  match z.bell with
  | .sounding pattern _ ticks tag => .sounding pattern tag (eighthsOf ticks)
  | _ => .off

/-- R97: the job drive of a zone's speaker output: Off while the zone has no claim or is cut in, else the claim's bus,
with talk-back when the claim has it (R123). -/
def speakerJob (z : Zone) : SpeakerValue :=
  match z.claim with
  | none => .off
  | some c => if z.cutIn then .off else if c.talkBack then .talkBack c.bus else .bus c.bus

/-- R95 to R97: the delivered values of zone number z with record `zone`. -/
def deliveredOf (s : State) (z : Nat) (zone : Zone) : Delivered :=
  let bell : BellValue × Layer := match evacuationBell s z with
    | some v => (v, .evacuation)
    | none =>
      if bellForcedIn s zone then (if zone.config.bellForced then .steady else .off, .forced) else (bellJob zone, .job)
  let speaker : SpeakerValue × Layer :=
    if speakerForcedIn s zone then (if zone.config.speakerForced then .bus 0 else .off, .forced) else (speakerJob zone, .job)
  let aux : Bool × Layer :=
    if auxForcedIn s zone then (zone.config.auxForced, .forced) else (zone.aux, .job)
  { bell := bell.1, bellLayer := bell.2, speaker := speaker.1, speakerLayer := speaker.2, aux := aux.1, auxLayer := aux.2 }

/-- The link state of a building; Unknown for a number above 7. -/
def linkStateOf (s : State) (b : Nat) : LinkState :=
  match s.link.buildings[b]? with
  | some x => x.link
  | none => .unknown

/-- R101: a zone is voice-live. A zone that is not keeps its claim (R124). -/
def voiceLive (s : State) (zone : Zone) : Bool :=
  zone.claim.isSome && zone.path == .good && linkStateOf s zone.config.building == .online && !zone.cutIn &&
    !speakerForcedIn s zone

/-- R122: the members of a set of zones that are voice-live. -/
def voiceLiveSet (s : State) (held : ZoneSet) : ZoneSet :=
  ofMembers 64 ((members held).filter (fun z => match s.zones.get z with
    | some zone => voiceLive s zone
    | none => false))

/-- R107: the source that source-select group b carries with its enable active, or none while the enable is inactive. -/
def sourceSelect (s : State) (b : Nat) : Option Nat :=
  if s.resetHeld then none
  else match s.arb.buses[b]? with
    | some (some e) => some e.source
    | _ => none

/-- R163, R164 and R171: the byte that the part drove at a place after the kind byte of the last frame, 0 beyond the bytes listed; undriven
while RESET is asserted. -/
def outputByte (s : State) (k : Nat) : Option Byte := if s.resetHeld then none else some ((s.port.output[k]?).getD 0)

/-- R70: the polarity with which a line output is driven, or none while it is undriven. -/
def lineDrive (l : Line) : Option Polarity :=
  match l.owed with
  | .inProgress _ polarity _ => some polarity
  | _ => none

end Sys2Proof.Machine
end

