-- ==== Sys2Proof/Machine/Arbiter.lean ====
section
/-! DEFINITION. The Announcement Arbiter's shared operations (7.3 to 7.7): the end of a record, its evaluation, the grant, the regrant in
passes, and what a rise of the effective mode does to the live records. -/

namespace Sys2Proof.Machine

/-- R108: a record is live while it is Waiting or Active. -/
def Announcement.live (a : Announcement) : Bool :=
  match a.state with
  | .ended .. => false
  | _ => true

/-- A record is Waiting. -/
def Announcement.isWaiting (a : Announcement) : Bool :=
  match a.state with
  | .waiting => true
  | _ => false

/-- The bus of an Active record. -/
def Announcement.activeBus (a : Announcement) : Option Nat :=
  match a.state with
  | .active b => some b
  | _ => none

/-- A record is Active. -/
def Announcement.isActive (a : Announcement) : Bool := a.activeBus.isSome

/-- Table 7-3: the priorities that a mode allows. -/
def modeAllows : Mode → Priority → Bool
  | .normal, _ => true
  | .quiet, _ => true
  | .hold, p => p != .routine
  | .drill, p => p == .urgent || p == .emergency
  | .alarm, p => p == .emergency

/-- R108: a record's arrival order number: its place among the live records, counting from 0 for the oldest. -/
def arrivalOrder (s : State) (n : Nat) : Nat := s.arb.arrival.idxOf n

/-- R110: record m stands behind record n for the choice of a victim: its priority is lower, or equal with a later start, or equal in
both with the greater arrival order number. A later start is the shorter elapsed time (R4). -/
def victimBefore (s : State) (n : Nat) (a : Announcement) (m : Nat) (b : Announcement) : Bool :=
  let ea := elapsedSince s (a.startSecond.getD s.time.counter)
  let eb := elapsedSince s (b.startSecond.getD s.time.counter)
  if a.priority.rank ≠ b.priority.rank then decide (a.priority.rank < b.priority.rank)
  else if ea ≠ eb then decide (ea < eb)
  else decide (arrivalOrder s m < arrivalOrder s n)

/-- R110: the buses that a record of a priority may use: bus 0 is given to Emergency announcements alone (R106). -/
def mayUseBus (p : Priority) (b : Nat) : Bool := p == .emergency || b != 0

/-- The bus table entry of a bus is none. -/
def busFree (s : State) (b : Nat) : Bool := s.arb.buses[b]? == some none

/-- R110: the lowest-numbered free bus among 1 to 3, bus 0 coming first for an Emergency record. -/
def freeBus (s : State) (p : Priority) : Option Nat :=
  (if p = .emergency then [0, 1, 2, 3] else [1, 2, 3]).find? (busFree s)

/-- R110: the Active announcement whose bus a record of priority p may take: of the lowest priority strictly below p. -/
def victimOf (s : State) (p : Priority) : Option Nat :=
  let candidates := s.arb.slots.filter (fun e =>
    decide (e.2.priority.rank < p.rank) && (match e.2.activeBus with
      | some b => mayUseBus p b
      | none => false))
  (candidates.foldl (fun best e => match best with
    | none => some e
    | some x => if victimBefore s e.1 e.2 x.1 x.2 then some e else some x) none).map (·.1)

/-- R110: a requested zone is eligible when it is free, or held by an Active announcement of strictly lower priority. -/
def zoneEligible (s : State) (p : Priority) (z : Nat) : Bool :=
  match s.zones.get z with
  | none => false
  | some zone =>
    match zone.claim with
    | none => true
    | some c =>
      match s.arb.slots.get c.record with
      | some a => decide (a.priority.rank < p.rank)
      | none => false

/-- R110: the eligible zones of a requested set, rising. -/
def eligibleZones (s : State) (a : Announcement) : List Nat := (members a.requested).filter (zoneEligible s a.priority)

/-- The bus a record may be granted, and the victim whose bus it is when no bus is free to it (R110). -/
def availableBus (s : State) (p : Priority) : Option (Nat × Option Nat) :=
  match freeBus s p with
  | some b => some (b, none)
  | none =>
    match victimOf s p with
    | some v =>
      match (s.arb.slots.get v).bind (·.activeBus) with
      | some b => some (b, some v)
      | none => none
    | none => none

/-- R110: coverage ALL needs every zone of the requested set eligible, coverage ANY at least one. -/
def coverageMet (s : State) (a : Announcement) : Bool :=
  match a.coverage with
  | .all => (members a.requested).all (zoneEligible s a.priority)
  | .any => (members a.requested).any (zoneEligible s a.priority)

/-- R110: a record can be granted: its coverage is met and a bus is available. -/
def canGrant (s : State) (a : Announcement) : Bool := coverageMet s a && (availableBus s a.priority).isSome

/-- R114: a record ends, its claims on the zones of `passing` being passed on by the grant that ends it and its bus entry being kept when
`keepBus` says that the grant takes the bus. Its other claims end. An ANNOUNCE event is raised for every end but Released, which the
host's own RELEASE or RETIRE makes; an answering record that ends WaitExpired raises a CALL event (R131). -/
def State.endRecord (s : State) (n : Nat) (reason : EndReason) (passing : ZoneSet) (keepBus : Bool) : State :=
  match s.arb.slots.get n with
  | none => s
  | some a =>
    let ended : Announcement := { a with state := .ended reason s.time.counter s.time.stamp, held := 0 }
    let s := { s with arb := { s.arb with slots := s.arb.slots.insert n ended, arrival := s.arb.arrival.erase n } }
    let s := match a.activeBus with
      | some b => if keepBus then s else s.setBus b none
      | none => s
    let s := s.forEach (members (a.held &&& ~~~passing)) State.endClaim
    let s := s.raiseIf (reason != .released) .announce
    s.raiseIf (reason == .waitExpired && a.answering.isSome) .call

/-- R111 step 2 for one other holder: it gives up the zones the grant takes; emptied, it ends ZonesLost; else it stays Active with its
smaller held set and an ANNOUNCE event is raised. -/
def State.loseZones (s : State) (taken : ZoneSet) (m : Nat) : State :=
  match s.arb.slots.get m with
  | none => s
  | some a =>
    if a.held &&& taken = 0 then s
    else if a.held &&& ~~~taken = 0 then s.endRecord m .zonesLost a.held false
    else (s.modifyAnnouncement m (fun x => { x with held := x.held &&& ~~~taken })).raise .announce

/-- R130: the grant of an answering announcement retires the call that its zone then holds. -/
def State.retireCallOf (s : State) (zone : Option Nat) : State :=
  match zone with
  | none => s
  | some z => { s with calls := { s.calls with calls := s.calls.calls.filter (fun c => c.zone != z) } }

/-- R111: the grant of record n, evaluated as R110 says: the victim ends Preempted, the other holders give up the eligible zones, the
record becomes Active on the bus, and the claims are written. -/
def State.grant (s : State) (n : Nat) : State :=
  match s.arb.slots.get n with
  | none => s
  | some a =>
    match availableBus s a.priority with
    | none => s
    | some (bus, victim) =>
      let taken := ofMembers 64 (eligibleZones s a)
      let s := match victim with
        | some v => s.endRecord v .preempted a.requested true
        | none => s
      let s := s.forEach (s.arb.slots.keys.filter (· != n)) (fun s m => s.loseZones taken m)
      let s := s.modifyAnnouncement n (fun x => { x with
        state := .active bus, held := taken, startSecond := some s.time.counter })
      let s := s.setBus bus (some { record := n, source := a.source })
      let s := s.forEach (members taken) (State.writeClaim · { record := n, bus := bus, talkBack := a.talkBack })
      s.retireCallOf a.answering

/-- A held zone bears a claim. -/
def zoneHeld (s : State) (z : Nat) : Bool :=
  match s.zones.get z with
  | some zone => zone.claim.isSome
  | none => false

/-- A zone is held as a record and has no claim. -/
def zoneFree (s : State) (z : Nat) : Bool :=
  match s.zones.get z with
  | some zone => zone.claim.isNone
  | none => false

/-- R115: whether an event freed zones or a bus: a claim that became none, or a bus entry that returned to none. -/
def freedSince (before after : State) : Bool :=
  before.zones.keys.any (fun z => zoneHeld before z && zoneFree after z) ||
  [0, 1, 2, 3].any (fun b => !busFree before b && busFree after b)

/-- The numbers of the records that satisfy a test, in order of priority from Emergency down, and within one priority in arrival order. -/
def queueOrder (s : State) (f : Announcement → Bool) : List Nat :=
  [Priority.emergency, .urgent, .office, .routine].flatMap (fun p =>
    s.arb.arrival.filter (fun n => match s.arb.slots.get n with
      | some a => a.priority == p && f a
      | none => false))

/-- R112: the waiting queue. -/
def waitingQueue (s : State) : List Nat := queueOrder s Announcement.isWaiting

/-- R115 part 1 for one Active record of coverage ANY: it takes every zone of its requested set that is free at that moment. -/
def State.pickUp (s : State) (n : Nat) : State :=
  match s.arb.slots.get n with
  | none => s
  | some a =>
    match a.activeBus with
    | none => s
    | some bus =>
      let free := (members a.requested).filter (zoneFree s)
      let s := s.modifyAnnouncement n (fun x => { x with held := x.held ||| ofMembers 64 free })
      s.forEach free (State.writeClaim · { record := n, bus := bus, talkBack := a.talkBack })

/-- R115 part 2 for one record of the queue: granted when it can be, with an ANNOUNCE event (R111). The flag says that something was
granted in this pass. -/
def regrantOne (acc : State × Bool) (n : Nat) : State × Bool :=
  match acc.1.arb.slots.get n with
  | none => acc
  | some a => if a.isWaiting && canGrant acc.1 a then ((acc.1.grant n).raise .announce, true) else acc

/-- R115: one pass: the pick-up by Active ANY records, then the queue. The flag says that a further pass is made. -/
def regrantPass (s : State) : State × Bool :=
  let s := s.forEach (queueOrder s (fun a => a.isActive && a.coverage == .any)) State.pickUp
  (waitingQueue s).foldl regrantOne (s, false)

/-- R115: passes are made until one grants nothing; at most seventeen. -/
def regrantPasses : Nat → State → State
  | 0, s => s
  | k + 1, s =>
    match regrantPass s with
    | (s', true) => regrantPasses k s'
    | (s', false) => s'

/-- R115: the regrant. -/
def State.regrant (s : State) : State := regrantPasses 17 s

/-- R115: the regrant that follows an event which took the part from `before` to `s`, when the event freed zones or a bus. -/
def State.regrantIfFreed (s before : State) : State := if freedSince before s then s.regrant else s

/-- A record ends whole, none of its zones being passed on (R114). -/
def State.endWhole (s : State) (n : Nat) (reason : EndReason) : State := s.endRecord n reason 0 false

/-- R119: a rise of the effective mode ends the live records whose priority the new mode does not allow: the Active ones first, in order
of record number, then the Waiting ones; the regrant follows. -/
def State.endDisallowed (s : State) : State :=
  let disallowed (f : Announcement → Bool) : List Nat :=
    (s.arb.slots.filter (fun e => f e.2 && !modeAllows s.modes.effective e.2.priority)).map (·.1)
  let s' := s.forEach (disallowed Announcement.isActive) (State.endWhole · · .modeEnded)
  let s' := s'.forEach (disallowed Announcement.isWaiting) (State.endWhole · · .modeEnded)
  s'.regrantIfFreed s

/-- R108: the lowest-numbered empty slot. -/
def emptySlot (s : State) : Option Nat := (List.range 16).find? (fun n => (s.arb.slots.get n).isNone)

/-- R109 step 3: a source feeds a live announcement. -/
def sourceFeeds (s : State) (source : Nat) : Bool := s.arb.slots.any (fun e => e.2.live && e.2.source == source)

/-- R109: the checks of ANNOUNCE, in order; the first that fails gives its code, and otherwise the priority and coverage are read. -/
def announceCheck (s : State) (f : AnnounceFields) : Except ResultCode (Priority × Coverage × Nat) :=
  match priorityOf f.priority, coverageOf f.coverage with
  | some p, some c =>
    if 3 < f.source then .error .range
    else if !modeAllows s.modes.effective p then .error .modeRefused
    else if sourceFeeds s f.source then .error .sourceBusy
    else match emptySlot s with
      | none => .error .full
      | some n =>
        if f.zones = 0 then .error .range
        else if !(members f.zones).all (fun z => (s.zones.get z).isSome) then .error .range
        else if f.talkBack && decide (1 < (members f.zones).length) then .error .range
        else .ok (p, c, n)
  | _, _ => .error .range

/-- R109: the record that an accepted request creates. -/
def newRecord (s : State) (f : AnnounceFields) (p : Priority) (c : Coverage) (answering : Option Nat) : Announcement :=
  { source := f.source, priority := p, coverage := c, requested := f.zones, held := 0, state := .waiting,
    arrivalSecond := s.time.counter, startSecond := none, maxDuration := maxDurationOf p f.maxDuration,
    waitLimit := min 60 f.waitLimit, talkBack := f.talkBack, answering := answering }

/-- R109, R111, R112: an accepted request's record is created in slot n at the end of the arrival order, evaluated, and granted, or left
Waiting, or ended WaitExpired at once when its wait limit is 0. -/
def State.announceInto (s : State) (n : Nat) (a : Announcement) : State :=
  let s := { s with arb := { s.arb with slots := s.arb.slots.insert n a, arrival := s.arb.arrival ++ [n] } }
  if canGrant s a then (s.grant n).regrantIfFreed s
  else if a.waitLimit = 0 then s.endWhole n .waitExpired
  else s

/-- R112: the body of the reply to an accepted ANNOUNCE: the record number and its state, the bus and held set of an Active record. -/
def announcedBody (s : State) (n : Nat) : ReplyBody :=
  match s.arb.slots.get n with
  | some a => .announced n a.state a.held
  | none => .empty

/-- ANNOUNCE as the Arbiter takes it (R109 to R112), from the host or from ANSWER CALL (R129). -/
def announceFor (s : State) (f : AnnounceFields) (answering : Option Nat) : Answer :=
  match announceCheck s f with
  | .error code => refuse s code .empty
  | .ok (p, c, n) =>
    let s' := s.announceInto n (newRecord s f p c answering)
    { state := s', result := okOrClamped (announceClamped p f), body := announcedBody s' n }

/-- The state and end reason of a record for the reply to RELEASE (R120). -/
def releasedBody (s : State) (n : Nat) : ReplyBody :=
  match s.arb.slots.get n with
  | some a => .released a.state
  | none => .empty

/-- R120: a live record ends Released and the regrant follows; an Ended record is left as it is. -/
def State.releaseRecord (s : State) (n : Nat) : State :=
  match s.arb.slots.get n with
  | none => s
  | some a => if a.live then (s.endWhole n .released).regrantIfFreed s else s

/-- R116: a record's maximum-duration interval has expired. -/
def durationExpired (s : State) (a : Announcement) : Bool :=
  a.isActive && (match a.maxDuration, a.startSecond with
    | some m, some t => intervalExpired s t m
    | _, _ => false)

/-- R116: the records whose maximum-duration intervals have expired, in order of record number. -/
def durationsExpired (s : State) : List Nat := (s.arb.slots.filter (fun e => durationExpired s e.2)).map (·.1)

/-- R116: all of them end Expired, and a single regrant follows. -/
def State.expireDurations (s : State) : State :=
  (s.forEach (durationsExpired s) (State.endWhole · · .expired)).regrantIfFreed s

/-- R117: a Waiting record's deadline has expired. -/
def waitExpired (s : State) (a : Announcement) : Bool := a.isWaiting && intervalExpired s a.arrivalSecond a.waitLimit

/-- R117: the wait deadline of record n, where it is Waiting and its deadline has expired: the record ends WaitExpired, and no regrant
follows. -/
def State.expireWait (s : State) (n : Nat) : State :=
  match s.arb.slots.get n with
  | some a => if waitExpired s a then s.endWhole n .waitExpired else s
  | none => s

end Sys2Proof.Machine
end

