-- ==== Sys2Proof/Machine/Modes.lean ====
section
/-! DEFINITION. The Mode and Evacuation Controller's shared operations (chapter 9): forming the effective mode, creating and closing
an evacuation record, the evacuation drive, the muster, and ALL CLEAR. -/

namespace Sys2Proof.Machine

/-- The greater of two modes (R135). -/
def maxMode (a b : Mode) : Mode := if a.level < b.level then b else a

/-- R135: the greatest of the base mode, Drill while the record is of kind Drill, and Alarm while the panel state is Alarm or the
record is of kind Alarm. -/
def effectiveModeOf (m : ModeControl) : Mode :=
  let byRecord : Mode := match m.record with
    | some r => match r.kind with
      | .drill => .drill
      | .alarm => .alarm
    | none => .normal
  let byPanel : Mode := match m.panel with
    | .alarm => .alarm
    | .normal => .normal
  maxMode (maxMode m.base byRecord) byPanel

/-- R135: the effective mode formed afresh. A rise is taken by the Arbiter (R119) and the Dispatcher (R60); the delivered values follow
by composition (R95), and a fall ends and grants nothing by itself. -/
def State.formMode (s : State) : State :=
  let new := effectiveModeOf s.modes
  let s' := { s with modes := { s.modes with effective := new } }
  if s.modes.effective.level < new.level then
    let s' := s'.endDisallowed
    s'.forEach s'.zones.keys State.dropDeferralIfForced
  else s'

/-! ### The evacuation drive (R146) -/

/-- R146: one driven zone's start-tag counter rises by one, as R55 sets out. -/
def State.advanceTag (s : State) (z : Nat) : State := s.modifyZone z (fun x => { x with tagCounter := nextTag x.tagCounter })

/-- The zones of a set that have a zone record, rising. -/
def heldZonesOf (s : State) (zs : ZoneSet) : List Nat := (members zs).filter (fun z => (s.zones.get z).isSome)

/-- R146: the start tags of the driven zones, as their counters now stand. -/
def tagsOf (s : State) (zs : List Nat) : Table Nat :=
  zs.filterMap (fun z => (s.zones.get z).map (fun x => (z, x.tagCounter)))

/-- R146: the time of a tone: the sounding time or the all-clear duration. -/
def toneTime (p : ProgramFields) : Tone → Nat
  | .evacuation => p.sounding
  | .allClear => p.allClearDuration

/-- R146: the drive begins a tone on the zones of the record's program, as that set stands. -/
def State.beginDrive (s : State) (tone : Tone) : State :=
  match s.modes.record, recordProgram s with
  | some r, some p =>
    let zs := heldZonesOf s p.fields.zones
    let s := s.forEach zs State.advanceTag
    s.setRecord (some { r with drive := some { tone := tone, ticks := 16 * toneTime p.fields tone, tags := tagsOf s zs } })
  | _, _ => s

/-! ### Creating and closing a record -/

/-- The muster building set of a program number; empty when there is none (R145). -/
def musterSetOf (s : State) (program : Option Nat) : BuildingSet :=
  match program.bind s.modes.programs.get with
  | some p => p.fields.muster
  | none => 0

/-- R144 and R145: a new evacuation record: its flags clear, no building clear, and the muster complete at second 0 when the muster
building set is empty. -/
def newEvacRecord (s : State) (kind : EvacKind) (program : Option Nat) (phase : Phase) : EvacRecord :=
  let empty := musterSetOf s program = 0
  { kind := kind, program := program, startSecond := s.time.counter, startCivil := s.time.stamp,
    phase := if phase = .sweep ∧ empty then .mustered else phase, drive := none, clears := Vector.replicate 8 none,
    musteredAt := if empty then some 0 else none, overdue := false, musterLate := false, ampFaults := 0, panelCleared := false,
    fixedResult := none }

/-- R144: a Drill record is created for a held program in Sounding with the evacuation tone, and the effective mode is formed afresh. -/
def State.createDrill (s : State) (program : Nat) : State :=
  ((s.setRecord (some (newEvacRecord s .drill (some program) .sounding))).beginDrive .evacuation).formMode

/-- R145: an Alarm record is created from the alarm program of the site record, in Sweep with no tone; its program is none when that
program is not held. An EVAC event is raised. The effective mode is formed afresh by the caller. -/
def State.createAlarm (s : State) : State :=
  let p := s.cal.site.alarmProgram
  let program := if (s.modes.programs.get p).isSome then some p else none
  (s.setRecord (some (newEvacRecord s .alarm program .sweep))).raise .evac

/-- R150: the last result of a closing record. -/
def lastResultOf (s : State) (r : EvacRecord) (result : EvacResult) : LastResult :=
  { kind := r.kind, startCivil := r.startCivil, endCivil := s.time.stamp, result := result, overdue := r.overdue,
    musterLate := r.musterLate, musteredAt := r.musteredAt, clears := r.clears, ampFaults := r.ampFaults }

/-- R150: the record closes: its program's last result is written, the drive lifts with it, the record is removed, and an EVAC event is
raised for each close other than by system reset. The effective mode is formed afresh by the caller. -/
def State.closeRecord (s : State) (result : EvacResult) : State :=
  match s.modes.record with
  | none => s
  | some r =>
    let programs := match r.program with
      | some p => s.modes.programs.modify p (fun x => { x with lastResult := some (lastResultOf s r result) })
      | none => s.modes.programs
    let s := { s with modes := { s.modes with programs := programs, record := none } }
    s.raiseIf (result != .interrupted) .evac

/-- R145: the panel state has changed to Alarm. -/
def State.panelToAlarm (s : State) : State :=
  match s.modes.record with
  | none => s.createAlarm.formMode
  | some r =>
    if r.kind = .drill ∨ r.phase = .closing then ((s.closeRecord .superseded).createAlarm).formMode
    else (s.setRecord (some { r with panelCleared := false })).formMode

/-- R145: the panel state has changed to Normal. -/
def State.panelToNormal (s : State) : State :=
  match s.modes.record with
  | some r =>
    if r.kind = .alarm then (s.setRecord (some { r with panelCleared := true })).formMode else s.formMode
  | none => s.formMode

/-! ### The phases -/

/-- R146: the evacuation tone ends or is silenced: the drive lifts, and the phase becomes Mustered when the muster is complete, Sweep
otherwise. -/
def liftTone (r : EvacRecord) : EvacRecord :=
  { r with drive := none, phase := if r.musteredAt.isSome then .mustered else .sweep }

/-- R147: every building of the muster set has a clear-at second. -/
def musterComplete (muster : BuildingSet) (r : EvacRecord) : Bool :=
  (members muster).all (fun b => (r.clears[b]?.getD none).isSome)

/-- R147: a building becomes clear. When it is the last of the muster set, the mustered-at second takes the elapsed time, an EVAC event is
raised, and a record in Sweep becomes Mustered. -/
def State.clearBuilding (s : State) (r : EvacRecord) (b : Nat) (manual : Bool) : State :=
  let elapsed := elapsedSince s r.startSecond
  let r : EvacRecord := { r with clears := r.clears.setIfInBounds b (some { second := elapsed, manual := manual }) }
  if r.musteredAt.isNone && musterComplete (musterSetOf s r.program) r then
    (s.setRecord (some { r with
      musteredAt := some elapsed, phase := if r.phase = .sweep then .mustered else r.phase })).raise .evac
  else s.setRecord (some r)

/-- R147: a rising clear level of a building. -/
def State.risingClear (s : State) (b : Nat) : State :=
  match s.modes.record with
  | none => s
  | some r =>
    if mem (musterSetOf s r.program) b && (r.clears[b]?.getD none).isNone && r.phase != .closing then s.clearBuilding r b false
    else s

/-- R147: a rising amplifier-fault flag of a building: the first of each building during a record raises an EVAC event. -/
def State.risingAmpFault (s : State) (b : Nat) : State :=
  match s.modes.record with
  | none => s
  | some r =>
    if mem r.ampFaults b then s
    else (s.setRecord (some { r with ampFaults := insertMember r.ampFaults b })).raise .evac

/-- R149: ALL CLEAR on a record not in Closing: the result is fixed, the phase becomes Closing with the all-clear tone; a record whose
program is none closes at once. -/
def State.takeAllClear (s : State) (r : EvacRecord) : State :=
  let result : EvacResult := if r.musteredAt.isSome then .completed else .endedEarly
  let s := s.setRecord (some { r with phase := .closing, drive := none, fixedResult := some result })
  match r.program with
  | some _ => s.beginDrive .allClear
  | none => (s.closeRecord result).formMode

end Sys2Proof.Machine
end

