-- ==== Sys2Proof/Machine/Paths.lean ====
section
/-! DEFINITION. Path quality (6.4): what a supervision count, the loss of a building, an insertion and a move do to a zone's path state, and
the alert fallback that a degradation may start (R102). -/

namespace Sys2Proof.Machine

/-- A zone becomes Degraded, or stays so, with a first window of four reports before it (R98, R100). -/
def Zone.degrade (z : Zone) : Zone := { z with path := .degraded, accumulator := 0, reports := 0, firstWindow := true }

/-- A Degraded zone's window restarts as a full window (R98, R99). -/
def Zone.restartWindow (z : Zone) : Zone := { z with accumulator := 0, reports := 0, firstWindow := false }

/-- A zone becomes Good with its window cleared (R99, R100). -/
def Zone.recover (z : Zone) : Zone := { z with path := .good, accumulator := 0, reports := 0, firstWindow := false }

/-- R98: the length of the window in progress. -/
def Zone.windowLength (z : Zone) : Nat := if z.firstWindow then 4 else z.config.window

/-- R98: a count of at most U on a Degraded zone is counted in its window. -/
def Zone.countInWindow (z : Zone) (count : Nat) : Zone :=
  { z with accumulator := min 65535 (z.accumulator + count), reports := z.reports + 1 }

/-- R98 and R99: a zone takes one supervision count. -/
def Zone.takeCount (z : Zone) (count : Nat) : Zone :=
  match z.path with
  | .good => if count ≤ z.config.upper then z else z.degrade
  | .degraded =>
    if z.config.upper < count then z.restartWindow
    else
      let z := z.countInWindow count
      if z.windowLength ≤ z.reports then (if z.accumulator ≤ z.config.lower then z.recover else z.restartWindow)
      else z

/-- R102, second event: a zone that has become Degraded while an Active announcement holds it takes the alert fallback. -/
def State.fallbackIfHeld (s : State) (z : Nat) : State :=
  match s.zones.get z with
  | some x => if x.claim.isSome then s.alertFallback z else s
  | none => s

/-- R98: one zone's supervision count as the Zone Table takes it: the path, the ZONE event of a change, and the alert fallback of a
degradation. -/
def State.takeCount (s : State) (z count : Nat) : State :=
  match s.zones.get z with
  | none => s
  | some x =>
    let x' := x.takeCount count
    let s' := (s.modifyZone z (·.takeCount count)).raiseIf (x'.path != x.path) .zone
    if x.path = .good ∧ x'.path = .degraded then s'.fallbackIfHeld z else s'

/-- R100: one zone of a building that becomes Lost. -/
def State.loseZonePath (s : State) (z : Nat) : State :=
  match s.zones.get z with
  | none => s
  | some x =>
    let s' := (s.modifyZone z Zone.degrade).raiseIf (x.path == .good) .zone
    if x.path = .good then s'.fallbackIfHeld z else s'

/-- The held zones whose building field names a building, rising. -/
def zonesOf (s : State) (b : Nat) : List Nat := (s.zones.filter (fun e => e.2.config.building == b)).map (·.1)

/-- R100: the Building Link Controller makes a building Lost. -/
def State.loseBuildingPaths (s : State) (b : Nat) : State := s.forEach (zonesOf s b) State.loseZonePath

/-- R100: the path of a zone inserted into a building, or moved to one, from the link state of that building. -/
def Zone.enterBuilding (z : Zone) (link : LinkState) : Zone :=
  match link with
  | .lost => z.degrade
  | _ => z.recover

end Sys2Proof.Machine
end

