-- ==== Sys2Proof/Config.lean ====
section
/-! DEFINITION. What the manual leaves open and the machine goes on with: free values. Each is a constant with no body,
so no proof can rest on a value of it. `State.freeCount` counts the uses, so that each use may differ. -/

namespace Sys2Proof

/-- R72 gives a waiting line "a free slot" and does not say which of the free slots. The n-th grant takes the free slot
at this place (modulo the number of free slots). DESIGN CHOICE (log 3): a free value, constrained to be a free slot. -/
opaque Config.slotChoice : Nat → Nat

/-- R65: on a forward step that leaves a day, whether the Dispatcher handles the rest of the old day before the Calendar
takes the step's first rollover (true) or after it (false). The manual allows either order and gives the outcome of
each. DESIGN CHOICE (log 4): a free value. -/
opaque Config.oldDayFirst : Nat → Bool

/-- 4.8, R59 and R116: at a boundary, whether the maximum durations that expire there are taken before the bell entries that fall due there,
and, where a time shift makes a step there, whether those not yet taken are taken before the step. The manual allows either order and gives
the outcome of each. DESIGN CHOICE (log 7): a free value. -/
opaque Config.durationsFirst : Nat → Bool

/-- R117: at a boundary, whether the wait deadline of a record (the second argument) that expires there is taken before the regrant that the
maximum durations of that boundary bring. The manual allows either order and gives the outcome of each. DESIGN CHOICE (log 7): a free
value. -/
opaque Config.waitFirst : Nat → Nat → Bool

/-- 4.8 and R59: at a boundary, whether the deferral deadline of a zone (the second argument) that expires there is taken before the bell
entries that fall due there, and, where a time shift makes a step there, whether one not yet taken is taken before the step.
DESIGN CHOICE (log 7): a free value. -/
opaque Config.deferralsFirst : Nat → Nat → Bool

end Sys2Proof
end

