-- ==== Sys2Proof/Machine/DayResolution.lean ====
section
/-! DEFINITION. The Calendar Unit's shared operations (chapter 2): the plan of a day, the rollover with its counting and retirements, the
backward-rollover, the re-resolution of today, and the resolution notices that the Bell Dispatcher takes (R27, R52, R53). -/

namespace Sys2Proof.Machine

/-- R18: the weekday of a day. -/
def weekdayOf (site : Site) (d : Day) : Nat := (d.toNat + site.epochWeekday) % 7

/-- R21: the override held under a division and a day. -/
def overrideAt (s : State) (v : Nat) (d : Day) : Option Override :=
  s.cal.overrides.find? (fun o => o.division == v && o.day == d)

/-- The cycle day that a SET override for a division and day fixes. -/
def cycleSetAt (s : State) (v : Nat) (d : Day) : Option Nat := (overrideAt s v d).bind (fun o => o.kind.cycleSet)

/-- R24: the plan that the override, or else the weekday map, names for a division and a day. -/
def planNamedFor (s : State) (v : Nat) (d : Day) : Option Nat :=
  match overrideAt s v d with
  | some o => o.kind.planNamed
  | none =>
    match s.cal.divisions[v]? with
    | some x => (x.map[weekdayOf s.cal.site d]?).getD none
    | none => none

/-- A resolution of R24: the resolved plan, the school-day flag, and whether the plan named did not exist or was owned elsewhere. -/
structure Resolution where
  plan : Option Nat
  schoolDay : Bool
  unresolved : Bool
  deriving DecidableEq, Repr

/-- R24: the plan named must be held and owned by the division; otherwise it is NONE and unresolved. -/
def resolvePlan (s : State) (v : Nat) (d : Day) : Resolution :=
  match planNamedFor s v d with
  | none => { plan := none, schoolDay := false, unresolved := false }
  | some p =>
    match s.store.plans.get p with
    | some x =>
      if x.division = v then { plan := some p, schoolDay := x.schoolDay, unresolved := false }
      else { plan := none, schoolDay := false, unresolved := true }
    | none => { plan := none, schoolDay := false, unresolved := true }

/-- The cycle day that follows the last school cycle day (R25): plus one modulo the cycle length, 0 from none. -/
def advanceCycle (x : Division) : Nat :=
  match x.lastCycle with
  | some c => (c + 1) % x.cycleLength
  | none => 0

/-- R25, second case: a school day is counted afresh. -/
def countAfresh (x : Division) (d : Day) (set : Option Nat) : Division :=
  let c := set.getD (advanceCycle x)
  { x with previousCycle := x.lastCycle, lastCycle := some c, lastCounted := some d, todayCycle := some c }

/-- R25: one division counts day d at a rollover into it. -/
def countDay (x : Division) (d : Day) (r : Resolution) (set : Option Nat) : Division :=
  let x : Division := { x with todayPlan := r.plan, schoolDay := r.schoolDay }
  if !r.schoolDay then { x with todayCycle := none }
  else if x.lastCounted ≠ some d then countAfresh x d set
  else match set with
    | some n => { x with todayCycle := some n, lastCycle := some n }
    | none => { x with todayCycle := some (x.lastCycle.getD 0) }

/-- One division resolves and counts day d; an unresolved plan raises a CALENDAR event (R24, R25). -/
def State.countDivision (d : Day) (s : State) (v : Nat) : State :=
  let r := resolvePlan s v d
  (s.modifyDivision v (fun x => countDay x d r (cycleSetAt s v d))).raiseIf r.unresolved .calendar

/-- R42: a bell entry expires at the rollover into day d when its valid-until day is before d. -/
def entryExpires (d : Day) (e : Entry) : Bool :=
  match e.validUntil with
  | some u => isBefore u d
  | none => false

/-- R34: the entry count of a plan falls by one. -/
def Store.uncount (st : Store) (p : Nat) : Store :=
  { st with plans := st.plans.modify p (fun x => { x with entryCount := x.entryCount - 1 }) }

/-- What the retirement of one entry does to the plan's entry count and the pattern's reference count (R41). -/
def Store.release (st : Store) (e : Entry) : Store := (st.uncount e.plan).dropRefOf e.patternNamed

/-- R42: the entries that expire at a rollover into day d are retired together. -/
def Store.expire (st : Store) (d : Day) : Store :=
  let st' := (st.entries.filter (entryExpires d)).foldl Store.release st
  { st' with entries := st'.entries.filter (fun e => !entryExpires d e) }

/-- R26: the rollover into day d as the Calendar takes it whole: today, the four divisions, the overrides and shift records keyed on the
day being left, and the expired entries. Rollovers are taken during a system reset too; none is while time is invalid (R32). -/
def State.rolloverCalendar (s : State) (d : Day) : State :=
  let s := { s with cal := { s.cal with today := some d } }
  let s := s.forEach divisionNumbers (State.countDivision d)
  { s with
    cal := { s.cal with overrides := s.cal.overrides.filter (fun o => o.day != d - 1) }
    time := { s.time with shifts := s.time.shifts.filter (fun r => r.day != d - 1) }
    store := s.store.expire d }

/-! ### Resolution notices (R27) -/

/-- A notice sets the dispatch plan and cycle day of one division from its division record (R52, R53). -/
def State.takeCopy (s : State) (v : Nat) : State :=
  match s.cal.divisions[v]? with
  | some x => { s with dispatch := updateAt s.dispatch v (fun _ => { plan := x.todayPlan, cycle := x.todayCycle }) }
  | none => s

/-- R52 and R53: a Rollover or Backward notice sets the mark and clears the two counts. -/
def State.restartCounts (mark : Mark) (s : State) (v : Nat) : State :=
  s.modifyDivision v (fun x => { x with mark := mark, missed := 0, suppressed := 0 })

/-- R52: the Rollover notice of one division, without its evaluation. R27: no notice is taken while RESET is asserted. -/
def State.rolloverNotice (s : State) (v : Nat) : State :=
  if s.resetHeld then s else (s.takeCopy v).restartCounts .start v

/-- R53: the Backward notice of one division. -/
def State.backwardNotice (s : State) (v : Nat) : State :=
  if s.resetHeld then s else (s.takeCopy v).restartCounts (.at 86399) v

/-- R53: the Re-resolution notice of one division. -/
def State.reResolutionNotice (s : State) (v : Nat) : State := if s.resetHeld then s else s.takeCopy v

/-! ### Backward-rollover and re-resolution -/

/-- R29: one division resolves day d at a backward-rollover, without counting it. -/
def lookBack (x : Division) (r : Resolution) (set : Option Nat) : Division :=
  { x with
    todayPlan := r.plan
    schoolDay := r.schoolDay
    todayCycle := if r.schoolDay then some (set.getD (x.lastCycle.getD 0)) else none }

/-- One division of a backward-rollover; an unresolved plan raises a CALENDAR event (R24, R29). -/
def State.lookBackDivision (d : Day) (s : State) (v : Nat) : State :=
  let r := resolvePlan s v d
  (s.modifyDivision v (fun x => lookBack x r (cycleSetAt s v d))).raiseIf r.unresolved .calendar

/-- R29: the backward-rollover into day d: overrides and shift records at a forward distance of 32 768 or more are retired, no entry is,
one CALENDAR event is raised, and the Dispatcher takes a Backward notice per division. -/
def State.backwardRollover (s : State) (d : Day) : State :=
  let s := { s with cal := { s.cal with today := some d } }
  let s := s.forEach divisionNumbers (State.lookBackDivision d)
  let s := { s with
    cal := { s.cal with overrides := s.cal.overrides.filter (fun o => forwardDistance d o.day < 32768) }
    time := { s.time with shifts := s.time.shifts.filter (fun r => forwardDistance d r.day < 32768) } }
  (s.forEach divisionNumbers State.backwardNotice).raise .calendar

/-- R31: the division record after a re-resolution of today, day d. -/
def reResolve (x : Division) (d : Day) (r : Resolution) (set : Option Nat) : Division :=
  let counted : Bool := x.lastCounted == some d
  let x : Division := { x with todayPlan := r.plan, schoolDay := r.schoolDay }
  match counted, r.schoolDay with
  | true, false => { x with lastCycle := x.previousCycle, lastCounted := none, todayCycle := none }
  | true, true =>
    match set with
    | some n => { x with todayCycle := some n, lastCycle := some n }
    | none => { x with todayCycle := some (x.todayCycle.getD (x.lastCycle.getD 0)) }
  | false, true => countAfresh x d set
  | false, false => { x with todayCycle := none }

/-- R31: re-resolution of today for one division: an unresolved plan raises a CALENDAR event, and so does a change of today's plan or
cycle day; the Dispatcher takes the Re-resolution notice. -/
def State.reResolveDivision (s : State) (v : Nat) : State :=
  match s.cal.today, s.cal.divisions[v]? with
  | some d, some x =>
    let r := resolvePlan s v d
    let x' := reResolve x d r (cycleSetAt s v d)
    let s := (s.modifyDivision v (fun _ => x')).raiseIf r.unresolved .calendar
    (s.reResolutionNotice v).raiseIf (x'.todayPlan != x.todayPlan || x'.todayCycle != x.todayCycle) .calendar
  | _, _ => s

/-- The plan that a division's resolution of today names (R30). -/
def planNamedToday (s : State) (v : Nat) : Option Nat :=
  match s.cal.today with
  | some d => planNamedFor s v d
  | none => none

/-- Today's plan of a division. -/
def todayPlanOf (s : State) (v : Nat) : Option Nat :=
  match s.cal.divisions[v]? with
  | some x => x.todayPlan
  | none => none

end Sys2Proof.Machine
end

