-- ==== Sys2Proof/Machine/BellDispatch.lean ====
section
/-! DEFINITION. The Bell Dispatcher's evaluations (4.2, 4.7): the entries of a span, those due today, what is done with each, and how a
step of the time base is taken. -/

namespace Sys2Proof.Machine

/-- R50: a civil second lies after the mark. -/
def Mark.before (m : Mark) (second : Nat) : Bool :=
  match m with
  | .start => true
  | .at n => decide (n < second)

/-- R49: the entries of a plan whose due second lies after the mark and at or before a second, in the order of R38. -/
def entriesDue (s : State) (plan : Nat) (after : Mark) (upTo : Nat) : List Entry :=
  s.store.entries.filter (fun e => e.plan == plan && after.before e.due && decide (e.due ≤ upTo))

/-- R42: an entry's validity covers day d. -/
def validityCovers (e : Entry) (d : Day) : Bool :=
  (match e.validFrom with
    | some a => decide (forwardDistance a d ≤ 32767)
    | none => true) &&
  (match e.validUntil with
    | some b => !isBefore b d
    | none => true)

/-- R51: an entry is due on day d with a cycle day: the cycle day is none or in the mask, and the validity covers d. -/
def dueOn (cycle : Option Nat) (d : Day) (e : Entry) : Bool :=
  (match cycle with
    | some c => mem e.mask c
    | none => true) && validityCovers e d

/-- R54 and R62: an entry is taken on each zone of its set, with a lateness. -/
def State.takeEntry (late : Nat) (s : State) (e : Entry) : State :=
  match e.action with
  | .bell pattern duration holdable deferLimit =>
    s.forEach (members e.zones) (fun s z => s.bellOnZone pattern duration holdable deferLimit late z)
  | .auxOn => s.forEach (members e.zones) (State.auxOnZone · true ·)
  | .auxOff => s.forEach (members e.zones) (State.auxOnZone · false ·)

/-- R64: an entry reached by a forward step, with lateness measured against `ends`: a Bell within the late limit (in minutes) is taken, one
beyond it is Missed on each zone of its set, an aux entry is applied. -/
def State.takeLateEntry (limit ends : Nat) (s : State) (e : Entry) : State :=
  let late := ends - e.due
  match e.action with
  | .bell .. => if late ≤ limit * 60 then s.takeEntry late e else s.forEach (members e.zones) State.missOnZone
  | _ => s.takeEntry late e

/-- The mark of a division. -/
def markOf (s : State) (v : Nat) : Mark :=
  match s.cal.divisions[v]? with
  | some x => x.mark
  | none => .start

/-- Set the mark of a division. -/
def State.setMark (s : State) (v second : Nat) : State := s.modifyDivision v (fun x => { x with mark := .at second })

/-- R51: a division is evaluated against a second of day d at a boundary: the entries due after the mark and at or before it, each with
lateness 0, and then the mark is the second if it lies after the mark. -/
def State.evaluate (second : Nat) (d : Day) (s : State) (v : Nat) : State :=
  if (markOf s v).before second then
    let c := s.dispatchOf v
    let s := match c.plan with
      | some p => ((entriesDue s p (markOf s v) second).filter (dueOn c.cycle d)).foldl (State.takeEntry 0) s
      | none => s
    s.setMark v second
  else s

/-- The late limit of a plan in minutes (R64); 0 for a plan that is not held, which has no entries. -/
def lateLimitOf (s : State) (p : Nat) : Nat := ((s.store.plans.get p).map (·.lateLimit)).getD 0

/-- R64: the entries that a forward step has reached, of the dispatch plan, due after the mark and at or before a second of day d, with
their lateness measured against `ends`. -/
def State.takeLate (s : State) (v upTo ends : Nat) (d : Day) : State :=
  let c := s.dispatchOf v
  match c.plan with
  | some p =>
    ((entriesDue s p (markOf s v) upTo).filter (dueOn c.cycle d)).foldl (State.takeLateEntry (lateLimitOf s p) ends) s
  | none => s

/-- R64: a forward step within day d as one division takes it. -/
def State.forwardWithin (second : Nat) (d : Day) (s : State) (v : Nat) : State :=
  if (markOf s v).before second then (s.takeLate v second second d).setMark v second else s

/-- R65 part 1: the rest of the old day, lateness measured against its end. -/
def State.restOfDay (old : Day) (s : State) (v : Nat) : State := s.takeLate v 86399 86400 old

/-- The Dispatcher does something for each division; not while it is held in reset (R68). -/
def State.dispatcher (s : State) (f : State → Nat → State) : State := if s.resetHeld then s else s.forEach divisionNumbers f

/-! ### Rollovers (R52, R65, R67) -/

/-- R26 and R52: a rollover that a boundary event makes: the Calendar takes it whole, then each division's notice is taken and evaluated
against second 0 of the day. -/
def State.boundaryRollover (s : State) (d : Day) : State :=
  ((s.rolloverCalendar d).forEach divisionNumbers State.rolloverNotice).dispatcher (State.evaluate 0 d)

/-- R28 and R65 part 2: a rollover that a step makes: the notices are taken without an evaluation. -/
def State.stepRollover (s : State) (d : Day) : State := (s.rolloverCalendar d).forEach divisionNumbers State.rolloverNotice

/-- R28: the further rollovers of a forward step, one a day, in day order. -/
def State.stepRollovers : Nat → State → Day → State
  | 0, s, _ => s
  | k + 1, s, d => State.stepRollovers k (s.stepRollover d) (d + 1)

/-- R65: a forward step across k + 1 midnights out of day `old` and into second `second` of its last day. Whether the rest of the old day
comes before or after the Calendar's first rollover is a free value (log 4). -/
def State.forwardAcross (s : State) (old : Day) (k second : Nat) : State :=
  let first := Config.oldDayFirst s.freeCount
  let s := { s with freeCount := s.freeCount + 1 }
  let s := if first then s.dispatcher (State.restOfDay old) else s
  let s := s.rolloverCalendar (old + 1)
  let s := if first then s else s.dispatcher (State.restOfDay old)
  let s := s.forEach divisionNumbers State.rolloverNotice
  let s := State.stepRollovers k s (old + 2)
  s.dispatcher (State.forwardWithin second (old + BitVec.ofNat 16 (k + 1)))

end Sys2Proof.Machine
end

