-- ==== Sys2Proof/Machine/LineOps.lean ====
section
/-! DEFINITION. The Clock Line Driver's shared operations (chapter 5), each on one line record: the evaluation, the minute boundary, the
completion and the abort of a pulse, and the driver slots. -/

namespace Sys2Proof.Machine

/-- 5.1: the target T of every Impulse line at a civil second: the civil minute-of-day modulo 720. -/
def targetAt (second : Nat) : Nat := second / 60 % 720

/-- The target as civil time now stands. -/
def targetNow (s : State) : Nat := targetAt s.time.civil.second

/-- The line owes a pulse (R73). -/
def Line.owes (l : Line) : Bool := l.owed != .none

/-- The line's owed pulse is in progress (R71). -/
def Line.pulsing (l : Line) : Bool :=
  match l.owed with
  | .inProgress .. => true
  | _ => false

/-- R73: the effective position E. -/
def Line.effective (l : Line) : Nat := if l.owes then (l.position + 1) % 720 else l.position

/-- R75: the dial distance from a position to a target: the minutes by which the line is behind. -/
def dialDistance (target position : Nat) : Nat := (target + 720 - position) % 720

/-- R69: Synced, Holding and Advancing are the running states of an Impulse line. -/
def LineState.running : LineState → Bool
  | .synced => true
  | .holding => true
  | .advancing => true
  | _ => false

/-- R76: the predicted pulses N = ceil(D × 60 / (60 − F)). -/
def predictedPulses (d fast : Nat) : Nat := (d * 60 + (60 - fast) - 1) / (60 - fast)

/-- R75: the state that a dial distance decides, given whether a pulse owed counts in it: with a pulse owed and a lead of 1 within H the
line is Synced. -/
def decideState (d hold : Nat) (owes : Bool) : LineState :=
  if d = 0 then .synced
  else if 720 - d ≤ hold then (if owes && 720 - d == 1 then .synced else .holding)
  else .advancing

/-- R76 and R79: an Advancing line that owes no pulse begins to wait once 16 × F ticks have passed since its last pulse start. -/
def Line.beginFastWait (l : Line) : Line :=
  if l.state = .advancing && !l.owes && decide (16 * l.fast ≤ l.sinceStart) then { l with owed := .waiting } else l

/-- R75 and R76: an evaluation against a target, made at the moments of R74 by the commands that R74 lists. N is computed afresh when the line is Advancing after it, and is 0 otherwise. -/
def Line.evaluate (target : Nat) (l : Line) : Line :=
  let d := dialDistance target l.effective
  let st := decideState d l.hold l.owes
  Line.beginFastWait { l with state := st, predicted := if st = .advancing then predictedPulses d l.fast else 0 }

/-- An evaluation of a line that is in a running state (R85, R87, R89). -/
def Line.evaluateRunning (target : Nat) (l : Line) : Line := if l.state.running then l.evaluate target else l

/-- A line that becomes Synced at a minute boundary (R78). -/
def Line.syncedAtMinute (l : Line) (owed : OwedPulse) : Line := { l with state := .synced, predicted := 0, owed := owed }

/-- R77 and R78: the minute boundary with the new target, and whether a LINE event is raised. -/
def Line.minuteBoundary (target : Nat) (l : Line) : Line × Bool :=
  match l.state with
  | .synced => if l.owes then (l.evaluate target, false) else ({ l with owed := .waiting }, false)
  | .holding | .advancing =>
    match l.owed with
    | .none => if l.position = target then (l.syncedAtMinute .none, true) else (l, false)
    | .waiting =>
      if l.position = target then (l.syncedAtMinute .none, true)
      else if l.effective = target then (l.syncedAtMinute .waiting, true)
      else (l, false)
    | .inProgress .. =>
      if l.effective = target ∨ l.position = target then (l.syncedAtMinute l.owed, true) else (l, false)
  | _ => (l, false)

/-- R88: a Following Coded line starts a frame with the civil time of the second just begun. -/
def Line.startFrame (second : Nat) (l : Line) : Line :=
  if l.state = .following then
    { l with frame := some { hour := second / 3600, minute := second / 60 % 60, second := second % 60, ticks := 0 } }
  else l

/-- The other polarity (R70). -/
def flipPolarity : Polarity → Polarity
  | .a => .b
  | .b => .a

/-- R71 and R80: the completion of a pulse against a target, and whether a LINE event is raised: P rises, the polarity flips, the owed pulse
becomes none, and a line in a running state is decided from P. N is kept by a line that stays Advancing. -/
def Line.complete (target : Nat) (l : Line) : Line × Bool :=
  let l' : Line := { l with position := (l.position + 1) % 720, polarity := flipPolarity l.polarity, owed := .none }
  if l.state.running then
    let d := dialDistance target l'.position
    let st := decideState d l.hold false
    let n := if st = .advancing then (if l.state = .advancing then l.predicted else predictedPulses d l.fast) else 0
    (Line.beginFastWait { l' with state := st, predicted := n }, l.state == .advancing && st != .advancing)
  else (l', false)

/-- R71: an aborted pulse frees its slot and clears the owed pulse; P, the polarity and the ticks since its start stay. R73: a withdrawn
wait does the same. -/
def Line.dropOwed (l : Line) : Line := { l with owed := .none }

/-- R83: a waiting owed pulse is withdrawn; a pulse in progress is kept. -/
def Line.withdrawWait (l : Line) : Line := if l.owed = .waiting then { l with owed := .none } else l

/-- R81: the cause that the two senses record; both sensed in one tick are recorded as overcurrent. -/
def causeOf (overcurrent openCircuit : Bool) : FaultCause :=
  if overcurrent then .overcurrent else if openCircuit then .openCircuit else .none

/-- R81: the line is driven: a pulse or a frame is in progress. -/
def Line.driven (l : Line) : Bool := l.pulsing || l.frame.isSome

/-- The driver slot that a line's pulse in progress uses. -/
def Line.slotUsed (l : Line) : Option Nat :=
  match l.owed with
  | .inProgress slot _ _ => some slot
  | _ => none

/-- R72: the free driver slots, rising. -/
def freeSlots (s : State) : List Nat :=
  [0, 1, 2, 3].filter (fun k => !s.lines.toList.any (fun l => l.slotUsed == some k))

/-- R72: the lowest-numbered line that waits for a slot. -/
def waitingLine (s : State) : Option Nat :=
  (List.range 12).find? (fun n => match s.lines[n]? with
    | some l => l.owed == .waiting
    | none => false)

/-- R71: the start of a pulse in a slot. -/
def Line.startPulse (l : Line) (slot : Nat) : Line :=
  { l with owed := .inProgress slot l.polarity l.width, sinceStart := 0 }

/-- R71: a pulse in progress has lasted its width. -/
def Line.pulseDue (l : Line) : Bool :=
  match l.owed with
  | .inProgress _ _ width => decide (width ≤ l.sinceStart)
  | _ => false

/-- Table 5-1 and R88: what a tick does to a line: the ticks since its last pulse start rise, stopping at 240, and those of a frame in
progress rise. -/
def Line.tick (l : Line) : Line :=
  { l with
    sinceStart := min 240 (l.sinceStart + 1)
    frame := l.frame.map (fun f => { f with ticks := f.ticks + 1 }) }

/-- The Clock Line Driver changes every line; not while it is held in reset (R89). -/
def State.onLines (s : State) (f : Line → Line) : State :=
  if s.resetHeld then s else { s with lines := updateAll s.lines (fun _ l => f l) }

/-- R77 and R78 on every line; one LINE event covers all (R169: a status does not count). -/
def State.minuteBoundary (s : State) (target : Nat) : State :=
  if s.resetHeld then s
  else
    let events := s.lines.toList.any (fun l => (l.minuteBoundary target).2)
    ({ s with lines := updateAll s.lines (fun _ l => (l.minuteBoundary target).1) }).raiseIf events .line

/-- R89: the assertion of a system reset on one line. -/
def Line.resetAsserted (l : Line) : Line := { l with owed := .none, sinceStart := 240, frame := none }

end Sys2Proof.Machine
end

