-- ==== Sys2Proof/Machine/TimeSteps.lean ====
section
/-! DEFINITION. The Time Base's shared operations (chapter 1): the end of a second, passed shift records, the standard and civil steps, and
the step event as the Calendar, the Dispatcher and the Clock Line Driver take it. -/

namespace Sys2Proof.Machine

/-- The standard time one second later: from 86 399 the second returns to 0 and the day increases by one (R2, R11). -/
def secondAfter (d : Day) (s : Nat) : Label := if s = 86399 then { day := d + 1, second := 0 } else { day := d, second := s + 1 }

/-- R2: the residual after a second of the given length: a 15-tick second takes one away, a 17-tick second adds one, and an adjustment
beyond −32 or +32 is not made. -/
def residualAfter (length : Nat) (residual : Int) : Int :=
  if length = 15 ∧ -32 < residual then residual - 1
  else if length = 17 ∧ residual < 32 then residual + 1
  else residual

/-- R2: the length of a new second, fixed from the residual. -/
def lengthFor (residual : Int) : Nat := if 0 < residual then 15 else if residual < 0 then 17 else 16

/-- R2: the end of a second, before its boundary event is raised. -/
def TimeBase.endSecond (t : TimeBase) : TimeBase :=
  let now := secondAfter t.stdDay t.stdSecond
  let residual := residualAfter t.secondLength t.residual
  { t with
    elapsedTicks := 0
    stdSecond := now.second
    stdDay := now.day
    residual := residual
    refState := if residual = 0 ∧ t.refState = .slewing then .locked else t.refState
    counter := t.counter + 1
    secondLength := lengthFor residual }

/-- R7: a standard step puts the Time Base at a day and second at tick 0; the second in progress is abandoned. -/
def TimeBase.standardAt (t : TimeBase) (d : Day) (s : Nat) : TimeBase :=
  { t with stdDay := d, stdSecond := s, elapsedTicks := 0, residual := 0, secondLength := 16 }

/-- R8 and R15: the offset with a shift added, brought into −720 to +720. -/
def shiftedOffset (offset shift : Int) : Int := clampInt (-720) 720 (offset + shift)

/-- R8: the application point of a shift record: the civil minute boundary at its minute on its day. -/
def ShiftRecord.point (r : ShiftRecord) : CivilTime := { day := r.day, second := r.minute * 60 }

/-- R8: a record is passed by a movement when its point lies after the old civil time and at or before the new. -/
def passedBy (old new : CivilTime) (r : ShiftRecord) : Bool :=
  decide (0 < civilAmount old r.point) && decide (civilAmount old r.point ≤ civilAmount old new)

/-- R8: the shift records examined in the order of their day, each judged by the movement as it stands at that moment. The flag says that a
shift was clamped. -/
def passShifts (old : CivilTime) : List ShiftRecord → TimeBase → TimeBase × Bool
  | [], t => (t, false)
  | r :: rest, t =>
    if passedBy old t.civil r then
      let t' : TimeBase := { t with offset := shiftedOffset t.offset r.shift, shifts := t.shifts.filter (· != r) }
      let (t'', clamped) := passShifts old rest t'
      (t'', clamped || outsideInt (-720) 720 (t.offset + r.shift))
    else passShifts old rest t

/-- R14: the shift records in the order of the forward distance of their day from today. -/
def shiftsInOrder (s : State) : List ShiftRecord :=
  sortByKey (fun r => forwardDistance s.today r.day) s.time.shifts

/-- R8: a movement whose civil amount is forward passes shift records; a backward one passes none. A clamped shift raises a TIME event. -/
def State.passRecords (s : State) (old : CivilTime) : State :=
  if 0 ≤ civilAmount old s.time.civil then
    let (t, clamped) := passShifts old (shiftsInOrder s) s.time
    ({ s with time := t }).raiseIf clamped .time
  else s

/-- R87: every Impulse line in a running state is evaluated against the new civil time. -/
def State.evaluateLines (s : State) : State := s.onLines (Line.evaluateRunning (targetNow s))

/-- R7: the step event from an old civil time to the civil time that now stands, as it is taken: a Forward step within a day (R64) or with
its rollovers (R28, R65), a Backward step into an earlier day (R29, R53) or within one (R66), and the lines (R87). Each step raises a
TIME event. -/
def State.stepEvent (s : State) (old : CivilTime) : State :=
  let new := s.time.civil
  let s := s.raise .time
  let s :=
    if 0 ≤ civilAmount old new then
      match forwardDistance old.day new.day with
      | 0 => s.dispatcher (State.forwardWithin new.second new.day)
      | k + 1 => s.forwardAcross old.day k new.second
    else if old.day = new.day then s
    else s.backwardRollover new.day
  s.evaluateLines

/-- R6, R28 and R67: the step event of a validating step: one rollover into the new civil day, its notices taken without an evaluation, and
the marks set to the new civil second. No record is passed and no line is in a running state. -/
def State.validatingEvent (s : State) : State :=
  let new := s.time.civil
  ((s.raise .time).stepRollover new.day).dispatcher (fun s v => s.setMark v new.second)

/-- R7 and R9: a standard step to a day and second, with an offset when one is given. While time is invalid it is a validating step and
sets the valid flag (R6). -/
def State.standardStep (s : State) (d : Day) (second : Nat) (offset : Option Int) : State :=
  let old := s.time.civil
  let t := s.time.standardAt d second
  let t : TimeBase := { t with offset := offset.getD t.offset }
  if s.time.valid then (({ s with time := t }).passRecords old).stepEvent old
  else ({ s with time := { t with valid := true } }).validatingEvent

/-- R15: the shift record that falls due at the boundary with the given civil time. -/
def TimeBase.dueShift (t : TimeBase) (c : CivilTime) : Option ShiftRecord :=
  t.shifts.find? (fun r => r.day == c.day && r.minute * 60 == c.second)

/-- R15: the record that falls due changes the offset, so that a civil step is made. -/
def TimeBase.makesCivilStep (t : TimeBase) (c : CivilTime) : Bool :=
  match t.dueShift c with
  | some r => shiftedOffset t.offset r.shift != t.offset
  | none => false

/-- R15: what the record that falls due changes in the Time Base: it is retired and its shift added to the offset, and when the offset has
changed the movement passes records as R8 says. The step event is raised by the caller, after the boundary event. -/
def State.applyDueShift (s : State) (c : CivilTime) : State :=
  match s.time.dueShift c with
  | none => s
  | some r =>
    let s' := { s with time := { s.time with
      offset := shiftedOffset s.time.offset r.shift, shifts := s.time.shifts.filter (fun x => x.day != c.day) } }
    let s' := s'.raiseIf (outsideInt (-720) 720 (s.time.offset + r.shift)) .time
    if s.time.makesCivilStep c then s'.passRecords c else s'

/-- R3, R51, R52, R77, R88: the boundary event as the Calendar, the Dispatcher and the Clock Line Driver take it while time is valid. -/
def State.boundaryEvent (s : State) (c : CivilTime) : State :=
  let s := if c.second = 0 then s.boundaryRollover c.day else s.dispatcher (State.evaluate c.second c.day)
  let s := if c.second % 60 = 0 then s.minuteBoundary (targetAt c.second) else s
  s.onLines (Line.startFrame c.second)

end Sys2Proof.Machine
end

