-- ==== Sys2Proof/Machine/Resets.lean ====
section
/-! DEFINITION. The two resets (section 2 of 00_scope.md): POWER_ON_RESET, SYSTEM_RESET_ASSERT and SYSTEM_RESET_RELEASE. -/

namespace Sys2Proof.Machine

/-- POWER_ON_RESET (R1, R18, R33, R50, R69, R104, R125, R126, R151, R153, R162, R171): every item of both domains takes its initial value
and the straps are sampled at the release. The queue of commands and the model's own count of free values are not state of the part. -/
def execPowerOnReset (straps : Straps) (s : State) : Result :=
  .next { State.por straps with freeCount := s.freeCount, pending := s.pending }

/-- R105, R68, R103: the live fields of a zone at the assertion of RESET; the aux job level is kept. -/
def Zone.resetAsserted (z : Zone) : Zone :=
  { z with path := .good, accumulator := 0, reports := 0, firstWindow := false, alertDone := false, claim := none, bell := .idle,
           tagCounter := 0 }

/-- R138 and R139 and R152: the panel monitor and the key monitor at the assertion of RESET. -/
def ModeControl.resetAsserted (m : ModeControl) : ModeControl :=
  { m with panel := .normal, alarmRun := 0, quietRun := 0, key := .spent }

/-- The part after the assertion of RESET (R17, R68, R89, R105, R125, R126, R152, R162, R171): an evacuation record closes Interrupted and the
effective mode becomes the base mode; the bell records, claims, announcements, calls, pulses, frames and the exchange in progress are cleared
without an event; the Command Port and the Attention Unit are emptied. The Time Base and the tables are left as they are. -/
def State.assertReset (s : State) : State :=
  let s := s.closeRecord .interrupted
  let modes := s.modes.resetAsserted
  { s with
    modes := { modes with effective := effectiveModeOf modes }
    zones := s.zones.mapAll (fun _ z => z.resetAsserted)
    arb := .por
    calls := .por
    lines := updateAll s.lines (fun _ l => l.resetAsserted)
    link := { s.link with exchange := none, slotOpen := false }
    port := .por
    attn := .por
    resetHeld := true }

/-- SYSTEM_RESET_ASSERT (R105): RESET is asserted while the standby supply holds. RESET already asserted is not asserted again. -/
def execSystemResetAssert (s : State) : Result := if s.resetHeld then .next s else .next s.assertReset

/-- R68: what the Dispatcher does for a division at the release: today's plan and cycle day from the division record, the counts cleared,
and, while time is valid, the mark at the current civil second. -/
def State.releaseDivision (s : State) (v : Nat) : State :=
  let s := s.takeCopy v
  s.modifyDivision v (fun x => { x with
    missed := 0, suppressed := 0, mark := if s.time.valid then .at s.time.civil.second else x.mark })

/-- The part after the release of RESET (R68, R89, R135, R137, R152, R154, R162): the straps are sampled, the marks set, each Impulse line in a
running state evaluated, the panel window restarted, the effective mode formed from the base mode, and the building records reset. -/
def State.releaseReset (s : State) (straps : Straps) : State :=
  let s := { s with
    resetHeld := false
    link := .atRelease straps s.store.held
    modes := { s.modes with windowTicks := 0, edges := 0, lastSample := false, sampled := false
                            effective := effectiveModeOf s.modes } }
  let s := s.forEach divisionNumbers State.releaseDivision
  if s.time.valid then s.evaluateLines else s

/-- SYSTEM_RESET_RELEASE (R162), with RESET asserted before it. -/
def execSystemResetRelease (straps : Straps) (s : State) : Result :=
  if s.resetHeld then .next (s.releaseReset straps) else .next s

end Sys2Proof.Machine
end

