-- ==== Sys2Proof/Machine/CampusTime.lean ====
section
/-! DEFINITION. Campus Time (chapter 1): TICK, SECOND_BOUNDARY, REF_PULSE, REFERENCE_LOSS, SET_TIME, TIME_REFERENCE and the requests of the
SHIFT table. -/

namespace Sys2Proof.Machine

/-! ### TICK -/

/-- R2: what a tick does to the Time Base. The elapsed ticks stop at the length of the second until the boundary is taken (log 6). -/
def TimeBase.tick (t : TimeBase) : TimeBase :=
  { t with elapsedTicks := min t.secondLength (t.elapsedTicks + 1), pulseAge := min 48 (t.pulseAge + 1) }

/-- R55: the remaining ticks of a Sounding record fall by one, forced, driven or claimed as its zone may be (R56). -/
def BellRecord.tick : BellRecord → BellRecord
  | .sounding pattern duration ticks tag => .sounding pattern duration (ticks - 1) tag
  | b => b

/-- R137: one sample of the PANEL line. The first sample after a release counts no edge; the edge count stops at 9; a window whose 32 ticks
have passed takes no further sample until it is judged (log 6). -/
def ModeControl.samplePanel (m : ModeControl) (active : Bool) : ModeControl :=
  if 32 ≤ m.windowTicks then m
  else
    let rising := m.sampled && active && !m.lastSample
    { m with windowTicks := m.windowTicks + 1, edges := if rising then min 9 (m.edges + 1) else m.edges, lastSample := active,
             sampled := true }

/-- R139: one sample of the KEY line. -/
def KeyMonitor.sample (k : KeyMonitor) (active : Bool) : KeyMonitor :=
  match k with
  | .spent => if active then .spent else .ready
  | .ready => if active then .timing 1 else .ready
  | .timing n => if 48 ≤ n then .timing n else if active then .timing (n + 1) else .released n
  | .released n => .released n

/-- R146: the remaining ticks of the evacuation drive fall by one. -/
def EvacRecord.tick (r : EvacRecord) : EvacRecord := { r with drive := r.drive.map (fun d => { d with ticks := d.ticks - 1 }) }

/-- R155: a poll slot begins: the slot counter advances, being 0 at the first slot after a release. -/
def LinkControl.beginSlot (l : LinkControl) : LinkControl :=
  { l with slotCounter := if l.slotStarted then (l.slotCounter + 1) % 16 else l.slotCounter, slotStarted := true, slotOpen := true }

/-- The working domain at a tick (R55, R71, R137, R139, R146, R155). -/
def State.tickWorking (s : State) (panel key : Bool) : State :=
  let modes := s.modes.samplePanel (panel == s.link.straps.panelActiveHigh)
  { s with
    zones := s.zones.mapAll (fun _ z => { z with bell := z.bell.tick })
    lines := updateAll s.lines (fun _ l => l.tick)
    modes := { modes with key := modes.key.sample key, record := modes.record.map EvacRecord.tick }
    link := s.link.beginSlot }

/-- TICK (R2). While RESET is asserted the Time Base alone takes it (R17, R68, R89, R152, R162). -/
def execTick (panel key : Bool) (s : State) : Result :=
  let s := { s with time := s.time.tick }
  if s.resetHeld then .next s else .next (s.tickWorking panel key)

/-! ### Seconds and reference pulses -/

/-- R117: the wait deadlines that expire at a boundary and are taken before the regrant of its maximum durations, each record's by a free
value (log 7). -/
def State.earlyWaits (k : Nat) (s : State) : State := s.forEach (s.arb.slots.keys.filter (Config.waitFirst k)) State.expireWait

/-- 4.8, R59, R116 and R117: the maximum durations and the deferral deadlines that expire at a boundary may be taken before the bell entries
of the boundary or of its step, or after them, and the wait deadlines before the regrant that those durations bring or after it;
WAIT_DEADLINE_EXPIRY, MAXIMUM_DURATION_EXPIRY and DEFERRAL_DEADLINE_EXPIRY take those that are left. Which, is free (log 7). -/
def State.earlyExpiries (s : State) : State :=
  if s.resetHeld then s
  else
    let k := s.freeCount
    let s := { s with freeCount := k + 1 }
    let s := if Config.durationsFirst k then (s.earlyWaits k).expireDurations else s
    s.forEach (s.zones.keys.filter (Config.deferralsFirst k)) State.expireDeferral

/-- The part at the end of a second (R2, R3, R15): the Time Base's changes, the shift record that falls due among them, so that a civil time
recorded in this tick is the snapshot's (R16); then, while time is valid, the boundary event, which carries the civil time before the
shift, and after it the step event of a shift that has moved the offset. What expires at the boundary may be taken before the boundary event,
between it and the step event, or after both (log 7). While time is invalid the boundary is the counter's advance alone. -/
def State.secondBoundary (s : State) : State :=
  let s := { s with time := s.time.endSecond }
  if s.time.valid then
    let c := s.time.civil
    let after := (s.applyDueShift c).earlyExpiries.boundaryEvent c
    if s.time.makesCivilStep c then after.earlyExpiries.stepEvent c else after
  else s

/-- SECOND_BOUNDARY (R3): the second ends once its elapsed ticks have reached its length; before that there is no boundary. -/
def execSecondBoundary (s : State) : Result :=
  if s.time.secondLength ≤ s.time.elapsedTicks then .next s.secondBoundary else .next s

/-- R11: the label of a pulse: the pending label, or while Locked or Slewing the last label plus one second. -/
def pulseLabel (t : TimeBase) : Option Label :=
  match t.pendingLabel with
  | some l => some l
  | none =>
    match t.refState with
    | .absent => none
    | _ => t.lastLabel.map (fun l => secondAfter l.day l.second)

/-- R12: the error in ticks of a label against the local standard time. -/
def referenceError (t : TimeBase) (l : Label) : Int :=
  civilAmount { day := t.stdDay, second := t.stdSecond } { day := l.day, second := l.second } * 16 - (t.elapsedTicks : Int)

/-- R11 and R12: a labelled pulse is taken, measured and acted on. -/
def State.takePulse (s : State) (l : Label) : State :=
  let wasAbsent := s.time.refState == .absent
  let e := referenceError s.time l
  let s := { s with time := { s.time with pulseAge := 0, pendingLabel := none, lastLabel := some l } }
  let s :=
    if s.time.valid ∧ -32 ≤ e ∧ e ≤ 32 then
      { s with time := { s.time with residual := e, refState := if e = 0 then .locked else .slewing } }
    else
      let s := s.standardStep l.day l.second none
      { s with time := { s.time with refState := .locked } }
  s.raiseIf wasAbsent .time

/-- REF_PULSE (R11): ignored while the pulse age is below 8, or without a label. -/
def execRefPulse (s : State) : Result :=
  if s.time.pulseAge < 8 then .next s
  else match pulseLabel s.time with
    | some l => .next (s.takePulse l)
    | none => .next s

/-- REFERENCE_LOSS (R13): the pulse age has reached 48 ticks while Locked or Slewing. -/
def execReferenceLoss (s : State) : Result :=
  if 48 ≤ s.time.pulseAge ∧ s.time.refState ≠ .absent then
    .next ({ s with time := { s.time with refState := .absent, lastLabel := none } }.raise .time)
  else .next s

/-! ### SET TIME and TIME REFERENCE -/

/-- R9: SET TIME as the Time Base takes it. -/
def setTimeAnswer (day : Day) (second : Nat) (offset : Option Int) (s : State) : Answer :=
  let offset' := offset.map (clampInt (-720) 720)
  let clamped := decide (86399 < second) || (match offset with
    | some o => outsideInt (-720) 720 o
    | none => false)
  let s := s.standardStep day (min 86399 second) offset'
  let s := { s with time := { s.time with pendingLabel := none, lastLabel := none, pulseAge := 48, refState := .absent } }
  { state := s, result := okOrClamped clamped, body := .snapshot s.time.snapshot }

/-- SET_TIME (R9). -/
def execSetTime (day : Day) (second : Nat) (offset : Option Int) (s : State) : Result :=
  takeRequest s 16 (setTimeAnswer day second offset)

/-- R10: TIME REFERENCE as the Time Base takes it. -/
def timeReferenceAnswer (day : Day) (second : Nat) (s : State) : Answer :=
  let s := { s with time := { s.time with pendingLabel := some { day := day, second := min 86399 second } } }
  { state := s, result := okOrClamped (decide (86399 < second)), body := .snapshot s.time.snapshot }

/-- TIME_REFERENCE (R10). -/
def execTimeReference (day : Day) (second : Nat) (s : State) : Result := takeRequest s 17 (timeReferenceAnswer day second)

/-! ### The SHIFT table (R14) -/

/-- The shift record held for a day. -/
def shiftAt (s : State) (d : Day) : Option ShiftRecord := s.time.shifts.find? (fun r => r.day == d)

/-- A shift record in a reply. -/
def shiftView (r : ShiftRecord) : RecordView := .shift r.minute r.shift

/-- R14: the time-shift records with one inserted, or replacing the one held for its day. -/
def State.putShift (s : State) (r : ShiftRecord) : State :=
  { s with time := { s.time with
      shifts := insertByKey (fun x => forwardDistance s.today x.day) r (s.time.shifts.filter (fun x => x.day != r.day)) } }

/-- R14: the day of a shift request lies before today, or is today with its minute already reached. -/
def shiftPast (s : State) (d : Day) (minute : Nat) : Bool :=
  isBefore d s.today || (d == s.today && decide (minute * 60 ≤ s.time.civil.second))

/-- R14: AMEND of the SHIFT table. -/
def amendShiftAnswer (d : Day) (f : ShiftFields) (s : State) : Answer :=
  let minute := min 1439 f.minute
  let shift := clampInt (-120) 120 f.shift
  if !s.time.valid then refuse s .timeInvalid (.key (.shift d))
  else if f.shift = 0 then refuse s .range (.key (.shift d))
  else if shiftPast s d minute then refuse s .range (.key (.shift d))
  else if (shiftAt s d).isNone && decide (4 ≤ s.time.shifts.length) then refuse s .full (.key (.shift d))
  else { state := s.putShift { day := d, minute := minute, shift := shift }
         result := okOrClamped (decide (1439 < f.minute) || outsideInt (-120) 120 f.shift)
         body := .record (.shift d) (.shift minute shift) }

/-- R14: RETIRE of the SHIFT table. -/
def retireShiftAnswer (d : Day) (s : State) : Answer :=
  if (shiftAt s d).isNone then refuse s .notFound (.key (.shift d))
  else { state := { s with time := { s.time with shifts := s.time.shifts.filter (fun x => x.day != d) } }
         result := .ok, body := .key (.shift d) }

/-- R14: the record that NEXT of the SHIFT table finds. -/
def shiftFollowing (s : State) (start : NextStart) (d : Day) : Option ShiftRecord :=
  let key := fun r : ShiftRecord => forwardDistance s.today r.day
  match start with
  | .given => leastAbove key (forwardDistance s.today d) s.time.shifts
  | _ => leastByKey key s.time.shifts

/-- LOOKUP_SHIFT (R14). -/
def execLookupShift (d : Day) (s : State) : Result :=
  takeRequest s codeLookup (fun s => lookupAnswer s false (.shift d) ((shiftAt s d).map shiftView))

/-- AMEND_SHIFT (R14). -/
def execAmendShift (d : Day) (f : ShiftFields) (s : State) : Result := takeRequest s codeAmend (amendShiftAnswer d f)

/-- RETIRE_SHIFT (R14). -/
def execRetireShift (d : Day) (s : State) : Result := takeRequest s codeRetire (retireShiftAnswer d)

/-- NEXT_SHIFT (R14). -/
def execNextShift (start : NextStart) (d : Day) (s : State) : Result :=
  takeRequest s codeNext (fun s =>
    nextAnswer s start false (.shift d) ((shiftFollowing s start d).map (fun r => (.shift r.day, shiftView r))))

end Sys2Proof.Machine
end

