-- ==== Sys2Proof/Machine/CalendarRequests.lean ====
section
/-! DEFINITION. The requests of the OVERRIDE, DIVISION and SITE tables (chapter 2, R136, R166). -/

namespace Sys2Proof.Machine

/-- A set of divisions re-resolves today (R30), in division order. -/
def State.reResolveWhere (s : State) (f : Nat → Bool) : State := s.forEach (divisionNumbers.filter f) State.reResolveDivision

/-! ### The OVERRIDE table -/

/-- R21: the place of a division and day in the table's order: by division, then by forward distance from today. -/
def overrideKey (today : Day) (v : Nat) (d : Day) : Nat := v * 65536 + forwardDistance today d

/-- R22: the override inserted, or replacing the one held under its key. -/
def State.putOverride (s : State) (o : Override) : State :=
  { s with cal := { s.cal with
      overrides := insertByKey (fun x => overrideKey s.today x.division x.day) o
        (s.cal.overrides.filter (fun x => !(x.division == o.division && x.day == o.day))) } }

/-- Today is re-resolved for a division after a change of an override, when the override's day is today and time is valid (R22, R23, R30). -/
def State.afterOverride (s : State) (v : Nat) (d : Day) : State :=
  if s.time.valid && s.cal.today == some d then s.reResolveDivision v else s

/-- R22 steps 2 and 3: a division above 3, a kind that is not one of the three, a plan above 15, or a cycle day above 7. -/
def overrideOutOfRange (v : Nat) (f : OverrideFields) : Bool :=
  decide (3 < v) || (match f with
    | .plan p => decide (15 < p)
    | .planSet p n => decide (15 < p) || decide (7 < n)
    | .noSchool => false
    | .other _ => true)

/-- R22 step 5: the cycle day brought below the division's cycle length. -/
def clampOverride (cycleLength : Nat) : OverrideKind → OverrideKind
  | .planSet p n => .planSet p (min (cycleLength - 1) n)
  | k => k

/-- The cycle length of a division. -/
def cycleLengthAt (s : State) (v : Nat) : Nat := ((s.cal.divisions[v]?).map (·.cycleLength)).getD 1

/-- R22: AMEND of the OVERRIDE table. -/
def amendOverrideAnswer (v : Nat) (d : Day) (f : OverrideFields) (s : State) : Answer :=
  let key : ReplyBody := .key (.override v d)
  if !s.time.valid then refuse s .timeInvalid key
  else if overrideOutOfRange v f then refuse s .range key
  else if 32768 ≤ forwardDistance s.today d then refuse s .range key
  else match overrideKindOf f with
    | none => refuse s .range key
    | some k =>
      let k' := clampOverride (cycleLengthAt s v) k
      if (overrideAt s v d).isNone && decide (128 ≤ s.cal.overrides.length) then refuse s .full key
      else { state := (s.putOverride { division := v, day := d, kind := k' }).afterOverride v d
             result := okOrClamped (k' != k), body := .record (.override v d) (.override k') }

/-- R23: RETIRE of the OVERRIDE table. -/
def retireOverrideAnswer (v : Nat) (d : Day) (s : State) : Answer :=
  let key : ReplyBody := .key (.override v d)
  if 3 < v then refuse s .range key
  else if (overrideAt s v d).isNone then refuse s .notFound key
  else
    let s := { s with cal := { s.cal with
      overrides := s.cal.overrides.filter (fun x => !(x.division == v && x.day == d)) } }
    { state := s.afterOverride v d, result := .ok, body := key }

/-- R23: the override that NEXT finds. -/
def overrideFollowing (s : State) (start : NextStart) (v : Nat) (d : Day) : Option Override :=
  let key := fun o : Override => overrideKey s.today o.division o.day
  match start with
  | .given => leastAbove key (overrideKey s.today v d) s.cal.overrides
  | _ => leastByKey key s.cal.overrides

/-- LOOKUP_OVERRIDE (R23; a division above 3 by 3.7). -/
def execLookupOverride (v : Nat) (d : Day) (s : State) : Result :=
  takeRequest s codeLookup (fun s =>
    lookupAnswer s (decide (3 < v)) (.override v d) ((overrideAt s v d).map (fun o => .override o.kind)))

/-- AMEND_OVERRIDE (R22). -/
def execAmendOverride (v : Nat) (d : Day) (f : OverrideFields) (s : State) : Result :=
  takeRequest s codeAmend (amendOverrideAnswer v d f)

/-- RETIRE_OVERRIDE (R23). -/
def execRetireOverride (v : Nat) (d : Day) (s : State) : Result := takeRequest s codeRetire (retireOverrideAnswer v d)

/-- NEXT_OVERRIDE (R23; a division above 3 by 3.7). -/
def execNextOverride (start : NextStart) (v : Nat) (d : Day) (s : State) : Result :=
  takeRequest s codeNext (fun s =>
    nextAnswer s start (isGivenKey start && decide (3 < v)) (.override v d)
      ((overrideFollowing s start v d).map (fun o => (.override o.division o.day, .override o.kind))))

/-! ### The DIVISION table -/

/-- R20: a cycle day clamped to a new cycle length less one; none stays none. -/
def clampCycle (length : Nat) (c : Option Nat) : Option Nat := c.map (min (length - 1))

/-- R20: a division record with the carried map and cycle length; a changed length clamps the stored cycle days. -/
def amendDivisionRecord (map : Vector (Option Nat) 7) (length : Nat) (x : Division) : Division :=
  if length = x.cycleLength then { x with map := map }
  else { x with map := map, cycleLength := length, lastCycle := clampCycle length x.lastCycle,
                previousCycle := clampCycle length x.previousCycle, todayCycle := clampCycle length x.todayCycle }

/-- R20: the SET overrides of a division clamped to a changed cycle length. -/
def clampOverridesOf (v length : Nat) (l : List Override) : List Override :=
  l.map (fun o => if o.division = v then { o with kind := clampOverride length o.kind } else o)

/-- R20: the weekday map entry for today has changed. -/
def todayEntryChanged (s : State) (old new : Vector (Option Nat) 7) : Bool :=
  match s.cal.today with
  | some d => old[weekdayOf s.cal.site d]? != new[weekdayOf s.cal.site d]?
  | none => false

/-- R20: AMEND of the DIVISION table. -/
def amendDivisionAnswer (v : Nat) (f : DivisionFields) (s : State) : Answer :=
  match s.cal.divisions[v]? with
  | none => refuse s .range (.key (.division v))
  | some x =>
    if f.map.toList.any (fun p => match p with
        | some n => decide (15 < n)
        | none => false) then refuse s .range (.key (.division v))
    else
      let length := clampNat 1 8 f.cycleLength
      let x' := amendDivisionRecord f.map length x
      let s' := s.modifyDivision v (fun _ => x')
      let s' := if length = x.cycleLength then s'
        else { s' with cal := { s'.cal with overrides := clampOverridesOf v length s'.cal.overrides } }
      let s' :=
        if s.time.valid && todayEntryChanged s x.map f.map then s'.reResolveDivision v
        else if s.time.valid && x'.todayCycle != x.todayCycle then s'.reResolutionNotice v
        else s'
      { state := s', result := okOrClamped (outside 1 8 f.cycleLength)
        body := .record (.division v) (.divisionAmended ((s'.cal.divisions[v]?).getD x')) }

/-- R18: a division record with today's weekday; while today is none there is none to return, and the field is none (DESIGN CHOICE,
log 20). -/
def divisionView (s : State) (v : Nat) : Option RecordView :=
  (s.cal.divisions[v]?).map (fun x => .division x (s.cal.today.map (weekdayOf s.cal.site)))

/-- R166: the division that NEXT finds. -/
def divisionFollowing (s : State) (start : NextStart) (v : Nat) : Option (Key × RecordView) :=
  (divisionView s (nextNumber start v)).map (fun r => (.division (nextNumber start v), r))

/-- AMEND_DIVISION (R20). -/
def execAmendDivision (v : Nat) (f : DivisionFields) (s : State) : Result := takeRequest s codeAmend (amendDivisionAnswer v f)

/-- LOOKUP_DIVISION (R18, R166). -/
def execLookupDivision (v : Nat) (s : State) : Result :=
  takeRequest s codeLookup (fun s => lookupAnswer s (decide (3 < v)) (.division v) (divisionView s v))

/-- NEXT_DIVISION (R166). -/
def execNextDivision (start : NextStart) (v : Nat) (s : State) : Result :=
  takeRequest s codeNext (fun s =>
    nextAnswer s start (isGivenKey start && decide (3 < v)) (.division v) (divisionFollowing s start v))

/-! ### The SITE table -/

/-- R19 and R136: the site record that an AMEND stores. -/
def siteOf (f : SiteFields) : Site :=
  { epochWeekday := min 6 f.epochWeekday, keyEnable := f.keyEnable, clearWindows := clampNat 2 30 f.clearWindows,
    alarmProgram := f.alarmProgram }

/-- R19 and R136: AMEND of the SITE table. A change of the epoch weekday re-resolves today for all four divisions while time is valid. -/
def amendSiteAnswer (f : SiteFields) (s : State) : Answer :=
  if 7 < f.alarmProgram then refuse s .range (.key .site)
  else
    let s' := { s with cal := { s.cal with site := siteOf f } }
    let s' := if s.time.valid && (siteOf f).epochWeekday != s.cal.site.epochWeekday then s'.reResolveWhere (fun _ => true) else s'
    { state := s', result := okOrClamped (decide (6 < f.epochWeekday) || outside 2 30 f.clearWindows)
      body := .record .site (.site (siteOf f)) }

/-- AMEND_SITE (R19, R136). -/
def execAmendSite (f : SiteFields) (s : State) : Result := takeRequest s codeAmend (amendSiteAnswer f)

/-- LOOKUP_SITE (R166). -/
def execLookupSite (s : State) : Result :=
  takeRequest s codeLookup (fun s => lookupAnswer s false .site (some (.site s.cal.site)))

end Sys2Proof.Machine
end

