-- ==== Sys2Proof/Machine/ScheduleRequests.lean ====
section
/-! DEFINITION. The requests of the PLAN, ENTRY and PATTERN tables (chapter 3). -/

namespace Sys2Proof.Machine

/-! ### The PLAN table -/

/-- R34: a plan record with its today's-plan marker, formed from its owning division's record; "no" while time is invalid. -/
def planView (s : State) (n : Nat) (p : Plan) : RecordView :=
  .plan p (some (s.time.valid && todayPlanOf s p.division == some n))

/-- R35: a plan record that an AMEND stores, its entry count kept. -/
def planOf (f : PlanFields) (entryCount : Nat) : Plan :=
  { division := f.division, tag := f.tag, schoolDay := f.schoolDay, lateLimit := min 5 f.lateLimit, entryCount := entryCount }

/-- R35: the divisions that re-resolve today after plan n has been amended from `old`: the old owner, when the plan was its today's plan and
its owner or school-day flag has changed; and each division whose today's resolution names the plan without having resolved it. -/
def planTouches (s : State) (n : Nat) (old : Option Plan) (f : PlanFields) (v : Nat) : Bool :=
  (match old with
    | some p => p.division == v && todayPlanOf s v == some n && (p.division != f.division || p.schoolDay != f.schoolDay)
    | none => false) ||
  (planNamedToday s v == some n && todayPlanOf s v != some n)

/-- R35: AMEND of the PLAN table. -/
def amendPlanAnswer (n : Nat) (f : PlanFields) (s : State) : Answer :=
  let old := s.store.plans.get n
  let count := (old.map (·.entryCount)).getD 0
  if 15 < n ∨ 3 < f.division then refuse s .range (.key (.plan n))
  else if 0 < count ∧ (old.map (·.division)) ≠ some f.division then refuse s .inUse (.key (.plan n))
  else
    let p := planOf f count
    let s' := { s with store := { s.store with plans := s.store.plans.insert n p } }
    { state := if s.time.valid then s'.reResolveWhere (planTouches s n old f) else s'
      result := okOrClamped (decide (5 < f.lateLimit)), body := .record (.plan n) (.plan p none) }

/-- R36: RETIRE of the PLAN table. -/
def retirePlanAnswer (n : Nat) (s : State) : Answer :=
  if 15 < n then refuse s .range (.key (.plan n))
  else match s.store.plans.get n with
    | none => refuse s .notFound (.key (.plan n))
    | some p =>
      if todayPlanOf s p.division = some n ∨ 0 < p.entryCount then refuse s .inUse (.key (.plan n))
      else
        let s' := { s with store := { s.store with plans := s.store.plans.erase n } }
        let named := fun v => planNamedToday s v == some n && todayPlanOf s v != some n
        { state := if s.time.valid then s'.reResolveWhere named else s', result := .ok, body := .key (.plan n) }

/-- LOOKUP_PLAN (R34, R36; a number above 15 by 3.7). -/
def execLookupPlan (n : Nat) (s : State) : Result :=
  takeRequest s codeLookup (fun s => lookupAnswer s (decide (15 < n)) (.plan n) ((s.store.plans.get n).map (planView s n)))

/-- AMEND_PLAN (R35). -/
def execAmendPlan (n : Nat) (f : PlanFields) (s : State) : Result := takeRequest s codeAmend (amendPlanAnswer n f)

/-- RETIRE_PLAN (R36). -/
def execRetirePlan (n : Nat) (s : State) : Result := takeRequest s codeRetire (retirePlanAnswer n)

/-- NEXT_PLAN (R36; a number above 15 by 3.7). -/
def execNextPlan (start : NextStart) (n : Nat) (s : State) : Result :=
  takeRequest s codeNext (fun s =>
    nextAnswer s start (isGivenKey start && decide (15 < n)) (.plan n)
      ((nextIn s.store.plans start n).map (fun e => (.plan e.1, planView s e.1 e.2))))

/-! ### The ENTRY table -/

/-- The entry held under a plan and a tag. -/
def entryAt (s : State) (plan tag : Nat) : Option Entry := s.store.entries.find? (fun e => e.plan == plan && e.tag == tag)

/-- R38: the place of an entry in the table's order: by plan, then by due second, then by tag. -/
def Entry.orderKey (e : Entry) : Nat := (e.plan * 122880 + e.due) * 256 + e.tag

/-- R39 step 1: a plan above 15, a tag above 255, an action that is none of the three, or for a Bell a pattern above 15. -/
def entryOutOfRange (plan tag : Nat) (f : EntryFields) : Bool :=
  decide (15 < plan) || decide (255 < tag) || (actionOf f).isNone || (f.action == 0 && decide (15 < f.pattern))

/-- R39 step 2: a plan that is not held, or for a Bell a pattern that is not held. -/
def entryNamesMissing (s : State) (plan : Nat) (f : EntryFields) : Bool :=
  (s.store.plans.get plan).isNone || (f.action == 0 && (s.store.patterns.get f.pattern).isNone)

/-- R39 step 4: the zone set is not empty, and each member has a zone record of the plan's owning division. -/
def entryZonesAllowed (s : State) (plan : Nat) (zones : ZoneSet) : Bool :=
  zones != 0 && (members zones).all (fun z => match s.zones.get z, s.store.plans.get plan with
    | some x, some p => x.config.division == p.division
    | _, _ => false)

/-- R39 step 5: a valid-until day before today while time is valid, or before the valid-from day. -/
def entryDaysRefused (s : State) (f : EntryFields) : Bool :=
  (match f.validUntil with
    | some u => s.time.valid && isBefore u s.today
    | none => false) ||
  (match f.validFrom, f.validUntil with
    | some a, some u => decide (32768 ≤ forwardDistance a u)
    | _, _ => false)

/-- R39 step 6: another entry of the same plan has the same due second and shares a zone. -/
def entryConflicts (s : State) (e : Entry) : Bool :=
  s.store.entries.any (fun x => x.plan == e.plan && x.tag != e.tag && x.due == e.due && x.zones &&& e.zones != 0)

/-- R39 step 7: the key is not held and the plan holds 128 entries or the store 512. -/
def entryTableFull (s : State) (plan tag : Nat) : Bool :=
  (entryAt s plan tag).isNone &&
    (decide (128 ≤ (s.store.entries.filter (fun e => e.plan == plan)).length) || decide (512 ≤ s.store.entries.length))

/-- R40: an accepted entry is inserted, or replaces the entry held under its key, with the changes to the entry count and the pattern
counts. -/
def Store.putEntry (st : Store) (e : Entry) (old : Option Entry) : Store :=
  let st' := match old with
    | some x => st.dropRefOf x.patternNamed
    | none => { st with plans := st.plans.modify e.plan (fun p => { p with entryCount := p.entryCount + 1 }) }
  let st' := st'.addRefOf e.patternNamed
  { st' with entries := insertByKey Entry.orderKey e (st'.entries.filter (fun x => !(x.plan == e.plan && x.tag == e.tag))) }

/-- R39 and R40: AMEND of the ENTRY table. -/
def amendEntryAnswer (plan tag : Nat) (f : EntryFields) (s : State) : Answer :=
  let key : ReplyBody := .key (.entry plan tag)
  match actionOf f with
  | none => refuse s .range key
  | some action =>
    let e := entryOf plan tag f action
    if entryOutOfRange plan tag f then refuse s .range key
    else if entryNamesMissing s plan f then refuse s .notFound key
    else if !entryZonesAllowed s plan f.zones then refuse s .range key
    else if entryDaysRefused s f then refuse s .range key
    else if entryConflicts s e then refuse s .conflict key
    else if entryTableFull s plan tag then refuse s .full key
    else { state := { s with store := s.store.putEntry e (entryAt s plan tag) }
           result := okOrClamped (entryClamped f), body := .record (.entry plan tag) (.entry e e.due) }

/-- R41: an entry leaves the table. -/
def Store.removeEntry (st : Store) (e : Entry) : Store :=
  let st' := st.release e
  { st' with entries := st'.entries.filter (fun x => !(x.plan == e.plan && x.tag == e.tag)) }

/-- R41: RETIRE of the ENTRY table. -/
def retireEntryAnswer (plan tag : Nat) (s : State) : Answer :=
  let key : ReplyBody := .key (.entry plan tag)
  if 15 < plan ∨ 255 < tag then refuse s .range key
  else match entryAt s plan tag with
    | none => refuse s .notFound key
    | some e => { state := { s with store := s.store.removeEntry e }, result := .ok, body := key }

/-- An entry in a reply, with its due second (R38). -/
def entryView (e : Entry) : RecordView := .entry e e.due

/-- R38: the entry that NEXT finds: the first of the table; the first of a plan or of the next plan that holds any; or the one that follows the
named entry, when that is held. -/
def entryFollowing (s : State) (start : NextStart) (plan tag : Nat) : Option Entry :=
  match start with
  | .fromStart => s.store.entries.head?
  | .fromPlan => s.store.entries.find? (fun e => decide (plan ≤ e.plan))
  | .given => (entryAt s plan tag).bind (fun x => s.store.entries.find? (fun e => decide (x.orderKey < e.orderKey)))

/-- LOOKUP_ENTRY (R38). -/
def execLookupEntry (plan tag : Nat) (s : State) : Result :=
  takeRequest s codeLookup (fun s =>
    lookupAnswer s (decide (15 < plan)) (.entry plan tag) ((entryAt s plan tag).map entryView))

/-- AMEND_ENTRY (R39, R40). -/
def execAmendEntry (plan tag : Nat) (f : EntryFields) (s : State) : Result := takeRequest s codeAmend (amendEntryAnswer plan tag f)

/-- RETIRE_ENTRY (R41). -/
def execRetireEntry (plan tag : Nat) (s : State) : Result := takeRequest s codeRetire (retireEntryAnswer plan tag)

/-- NEXT_ENTRY (R38). -/
def execNextEntry (start : NextStart) (plan tag : Nat) (s : State) : Result :=
  takeRequest s codeNext (fun s =>
    nextAnswer s start (start != .fromStart && decide (15 < plan)) (.entry plan tag)
      ((entryFollowing s start plan tag).map (fun e => (.entry e.plan e.tag, entryView e))))

/-! ### The PATTERN table -/

/-- R44: a pattern in a reply, with its cycle length and reference count. -/
def patternView (p : Pattern) : RecordView := .pattern p (some (cycleLengthOf p.steps))

/-- R160: an accepted pattern amendment is added to the pending set of every present building, and marks the pattern in flight. -/
def Building.addPending (b : Building) (p : Nat) : Building :=
  if b.present then
    { b with
      pending := insertMember b.pending p
      inFlight := b.inFlight.map (fun f => if f.pattern = p then { f with amended := true } else f) }
  else b

/-- R160 over all the building records. -/
def LinkControl.addPending (l : LinkControl) (p : Nat) : LinkControl :=
  { l with buildings := updateAll l.buildings (fun _ b => b.addPending p) }

/-- R45: AMEND of the PATTERN table. -/
def amendPatternAnswer (n : Nat) (steps : List PatternStep) (s : State) : Answer :=
  if 15 < n ∨ steps = [] ∨ 6 < steps.length then refuse s .range (.key (.pattern n))
  else
    let p : Pattern := { steps := steps.map clampStep, refs := ((s.store.patterns.get n).map (·.refs)).getD 0 }
    { state := { s with store := { s.store with patterns := s.store.patterns.insert n p }, link := s.link.addPending n }
      result := okOrClamped (p.steps != steps), body := .record (.pattern n) (.pattern p none) }

/-- R46: RETIRE of the PATTERN table. -/
def retirePatternAnswer (n : Nat) (s : State) : Answer :=
  if 15 < n then refuse s .range (.key (.pattern n))
  else if n = 0 then refuse s .inUse (.key (.pattern n))
  else match s.store.patterns.get n with
    | none => refuse s .notFound (.key (.pattern n))
    | some p =>
      if 0 < p.refs then refuse s .inUse (.key (.pattern n))
      else { state := { s with store := { s.store with patterns := s.store.patterns.erase n } }
             result := .ok, body := .key (.pattern n) }

/-- LOOKUP_PATTERN (R44). -/
def execLookupPattern (n : Nat) (s : State) : Result :=
  takeRequest s codeLookup (fun s =>
    lookupAnswer s (decide (15 < n)) (.pattern n) ((s.store.patterns.get n).map patternView))

/-- AMEND_PATTERN (R45). -/
def execAmendPattern (n : Nat) (steps : List PatternStep) (s : State) : Result :=
  takeRequest s codeAmend (amendPatternAnswer n steps)

/-- RETIRE_PATTERN (R46). -/
def execRetirePattern (n : Nat) (s : State) : Result := takeRequest s codeRetire (retirePatternAnswer n)

/-- NEXT_PATTERN (R44). -/
def execNextPattern (start : NextStart) (n : Nat) (s : State) : Result :=
  takeRequest s codeNext (fun s =>
    nextAnswer s start (isGivenKey start && decide (15 < n)) (.pattern n)
      ((nextIn s.store.patterns start n).map (fun e => (.pattern e.1, patternView e.2))))

end Sys2Proof.Machine
end

