-- ==== Sys2Proof/Machine/ZoneRequests.lean ====
section
/-! DEFINITION. The requests of the ZONE table (6.2). -/

namespace Sys2Proof.Machine

/-- A zone as an insertion makes it, before R100 sets its path: the live fields of R90 and R50. -/
def newZone (config : ZoneConfig) : Zone :=
  { config := config, path := .good, accumulator := 0, reports := 0, firstWindow := false, alertDone := false, bell := .idle,
    tagCounter := 0, aux := false, claim := none }

/-- A call of the Call List names the zone. -/
def namedByCall (s : State) (z : Nat) : Bool := s.calls.calls.any (fun c => c.zone == z)

/-- A zone lies in the requested set of a live announcement. -/
def requestedByLive (s : State) (z : Nat) : Bool := s.arb.slots.any (fun e => e.2.live && mem e.2.requested z)

/-- A zone lies in the evacuation zone set of the program that the evacuation record names. -/
def inRecordZones (s : State) (z : Nat) : Bool :=
  match recordProgram s with
  | some p => mem p.fields.zones z
  | none => false

/-- R92 step 4 and R94: what forbids a zone's retirement or its move to another building. -/
def zoneTiedDown (s : State) (z : Nat) (x : Zone) : Bool :=
  x.claim.isSome || requestedByLive s z || namedByCall s z || inRecordZones s z

/-- R92 step 4: the cases in which an amendment of a held zone is refused with IN_USE. -/
def zoneAmendInUse (s : State) (z : Nat) (old : Zone) (f : ZoneFields) (kind : ZoneKind) : Bool :=
  (f.division != old.config.division && s.store.entries.any (fun e => mem e.zones z)) ||
  (f.building != old.config.building && zoneTiedDown s z old) ||
  (namedByCall s z && ((old.config.kind == .room && kind != .room) || (old.config.callSwitch && !(f.callSwitch && kind == .room))))

/-- R92 step 5: the zone would be the seventeenth of its building. -/
def buildingFull (s : State) (old : Option Zone) (building : Nat) : Bool :=
  (old.map (·.config.building)) != some building && decide (16 ≤ (s.zoneCounts[building]?).getD 0)

/-- R159: the call eligibility of a zone in a building record becomes clear. -/
def State.clearEligible (s : State) (building z : Nat) : State :=
  s.modifyBuilding building (fun b => { b with eligible := eraseMember b.eligible z })

/-- R48 and R91: the alert pattern's count and the building's zone count after an amendment from an old configuration, or an insertion. -/
def State.recountZone (s : State) (old : Option ZoneConfig) (new : ZoneConfig) : State :=
  match old with
  | none => { s with store := s.store.addRef new.alertPattern }.countZone new.building (· + 1)
  | some o =>
    let s := { s with store := if o.alertPattern = new.alertPattern then s.store
                               else (s.store.dropRef o.alertPattern).addRef new.alertPattern }
    if o.building = new.building then s else (s.countZone o.building (· - 1)).countZone new.building (· + 1)

/-- R93: a zone is inserted. R100 gives its path, with a ZONE event when its building is Lost. -/
def State.insertZone (s : State) (z : Nat) (config : ZoneConfig) : State :=
  let link := linkStateOf s config.building
  let s := ({ s with zones := s.zones.insert z ((newZone config).enterBuilding link) }).recountZone none config
  (s.clearEligible config.building z).raiseIf (link == .lost) .zone

/-- R93: a held zone's configuration is replaced. A change of building sets its path (R100); a new building or a new call switch clears its
call eligibility (R159); a deferral that the amendment forces is dropped (R60). -/
def State.replaceZone (s : State) (z : Nat) (old : Zone) (config : ZoneConfig) : State :=
  let moved := config.building != old.config.building
  let new : Zone := { old with config := config }
  let new := if moved then new.enterBuilding (linkStateOf s config.building) else new
  let wasForced := bellForcedIn s old
  let s := ({ s with zones := s.zones.insert z new }).recountZone (some old.config) config
  let s := if moved || (config.callSwitch && !old.config.callSwitch) then s.clearEligible config.building z else s
  let s := s.raiseIf (moved && new.path != old.path) .zone
  if wasForced then s else s.dropDeferralIfForced z

/-- R92 and R93: AMEND of the ZONE table. -/
def amendZoneAnswer (z : Nat) (f : ZoneFields) (s : State) : Answer :=
  let key : ReplyBody := .key (.zone z)
  let old := s.zones.get z
  match zoneKindOf f.kind with
  | none => refuse s .range key
  | some kind =>
    if 63 < z ∨ 7 < f.building ∨ 3 < f.division ∨ 15 < f.alertPattern then refuse s .range key
    else if (s.store.patterns.get f.alertPattern).isNone then refuse s .notFound key
    else if (match old with
        | some x => zoneAmendInUse s z x f kind
        | none => false) then refuse s .inUse key
    else if buildingFull s old f.building then refuse s .full key
    else
      let held := old.map (·.config)
      let config := zoneConfigOf f kind held
      let s' := match old with
        | none => s.insertZone z config
        | some x => s.replaceZone z x config
      { state := s', result := okOrClamped (zoneClamped f held), body := .record (.zone z) (.zone config none) }

/-- R43: an entry without a zone in its zone set. -/
def Entry.withoutZone (z : Nat) (e : Entry) : Entry := { e with zones := eraseMember e.zones z }

/-- R94: a program without a zone in its evacuation zone set. -/
def Program.withoutZone (z : Nat) (p : Program) : Program :=
  { p with fields := { p.fields with zones := eraseMember p.fields.zones z } }

/-- R94: a zone is retired: it leaves the table, the zone set of every bell entry (R43) and of every drill program, and the counts of its
alert pattern (R48) and its building (R91) fall. -/
def State.retireZone (s : State) (z : Nat) (x : Zone) : State :=
  let store := s.store.dropRef x.config.alertPattern
  let s := { s with
    zones := s.zones.erase z
    store := { store with entries := store.entries.map (Entry.withoutZone z) }
    modes := { s.modes with programs := s.modes.programs.mapAll (fun _ p => p.withoutZone z) } }
  s.countZone x.config.building (· - 1)

/-- R94: RETIRE of the ZONE table. -/
def retireZoneAnswer (z : Nat) (s : State) : Answer :=
  let key : ReplyBody := .key (.zone z)
  if 63 < z then refuse s .range key
  else match s.zones.get z with
    | none => refuse s .notFound key
    | some x => if zoneTiedDown s z x then refuse s .inUse key else { state := s.retireZone z x, result := .ok, body := key }

/-- R94: a zone in a reply: its configuration and live fields, its voice-live flag, and its delivered values with their layers. -/
def zoneView (s : State) (z : Nat) (x : Zone) : RecordView := .zone x.config (some (x, voiceLive s x, deliveredOf s z x))

/-- LOOKUP_ZONE (R94). -/
def execLookupZone (z : Nat) (s : State) : Result :=
  takeRequest s codeLookup (fun s => lookupAnswer s (decide (63 < z)) (.zone z) ((s.zones.get z).map (zoneView s z)))

/-- AMEND_ZONE (R92, R93). -/
def execAmendZone (z : Nat) (f : ZoneFields) (s : State) : Result := takeRequest s codeAmend (amendZoneAnswer z f)

/-- RETIRE_ZONE (R94). -/
def execRetireZone (z : Nat) (s : State) : Result := takeRequest s codeRetire (retireZoneAnswer z)

/-- NEXT_ZONE (R94). -/
def execNextZone (start : NextStart) (z : Nat) (s : State) : Result :=
  takeRequest s codeNext (fun s =>
    nextAnswer s start (isGivenKey start && decide (63 < z)) (.zone z)
      ((nextIn s.zones start z).map (fun e => (.zone e.1, zoneView s e.1 e.2))))

end Sys2Proof.Machine
end

