-- ==== Sys2Proof/Machine/Announcements.lean ====
section
/-! DEFINITION. Announcements (chapter 7): ANNOUNCE, RELEASE, the requests of the ANNOUNCEMENT table, and the expiries of the maximum
duration, the wait deadline and the automatic retirement. -/

namespace Sys2Proof.Machine

/-- ANNOUNCE (R109 to R112). -/
def execAnnounce (f : AnnounceFields) (s : State) : Result := takeRequest s 19 (fun s => announceFor s f none)

/-- R120: RELEASE of a record. -/
def releaseAnswer (n : Nat) (s : State) : Answer :=
  if 15 < n then refuse s .range .empty
  else if (s.arb.slots.get n).isNone then refuse s .notFound .empty
  else { state := s.releaseRecord n, result := .ok, body := releasedBody (s.releaseRecord n) n }

/-- RELEASE (R120). -/
def execRelease (n : Nat) (s : State) : Result := takeRequest s 20 (releaseAnswer n)

/-! ### The ANNOUNCEMENT table -/

/-- R118 and R121: a record's slot becomes empty. -/
def State.emptyRecordSlot (s : State) (n : Nat) : State := { s with arb := { s.arb with slots := s.arb.slots.erase n } }

/-- R121: RETIRE of the ANNOUNCEMENT table: a live record first ends Released. -/
def retireAnnouncementAnswer (n : Nat) (s : State) : Answer :=
  let key : ReplyBody := .key (.announcement n)
  if 15 < n then refuse s .range key
  else if (s.arb.slots.get n).isNone then refuse s .notFound key
  else { state := (s.releaseRecord n).emptyRecordSlot n, result := .ok, body := key }

/-- R122: what LOOKUP returns beside a record: a Waiting record's place in the queue and the seconds before its deadline, an Active record's
elapsed seconds, the seconds remaining of its maximum duration, and its voice-live set. -/
def announcementLive (s : State) (n : Nat) (a : Announcement) : AnnView :=
  match a.state with
  | .waiting => .waiting ((waitingQueue s).idxOf n) (a.waitLimit - elapsedSince s a.arrivalSecond)
  | .active _ =>
    let elapsed := elapsedSince s (a.startSecond.getD s.time.counter)
    .active elapsed (a.maxDuration.map (· - elapsed)) (voiceLiveSet s a.held)
  | .ended .. => .ended

/-- R122: a record in a reply. Its arrival order number is present while it is live. -/
def announcementView (s : State) (n : Nat) (a : Announcement) : RecordView :=
  .announcement a (if a.live then some (arrivalOrder s n) else none) (announcementLive s n a)

/-- LOOKUP_ANNOUNCEMENT (R122). -/
def execLookupAnnouncement (n : Nat) (s : State) : Result :=
  takeRequest s codeLookup (fun s =>
    lookupAnswer s (decide (15 < n)) (.announcement n) ((s.arb.slots.get n).map (announcementView s n)))

/-- RETIRE_ANNOUNCEMENT (R121). -/
def execRetireAnnouncement (n : Nat) (s : State) : Result := takeRequest s codeRetire (retireAnnouncementAnswer n)

/-- NEXT_ANNOUNCEMENT (R122). A record number is none of the structural fields of 3.7 and R122 gives NEXT no RANGE: after a number above 15
no record follows (log 10). -/
def execNextAnnouncement (start : NextStart) (n : Nat) (s : State) : Result :=
  takeRequest s codeNext (fun s =>
    nextAnswer s start false (.announcement n)
      ((nextIn s.arb.slots start n).map (fun e => (.announcement e.1, announcementView s e.1 e.2))))

/-! ### Expiries -/

/-- MAXIMUM_DURATION_EXPIRY (R116). -/
def execMaximumDurationExpiry (s : State) : Result := takeEvent s State.expireDurations

/-- WAIT_DEADLINE_EXPIRY (R117). -/
def execWaitDeadlineExpiry (n : Nat) (s : State) : Result := takeEvent s (State.expireWait · n)

/-- R118: thirty seconds have passed since an Ended record's end. -/
def retirementDue (s : State) (a : Announcement) : Bool :=
  match a.state with
  | .ended _ atSecond _ => intervalExpired s atSecond 30
  | _ => false

/-- R118: the automatic retirement of record n, where it is due. -/
def State.retireEnded (s : State) (n : Nat) : State :=
  match s.arb.slots.get n with
  | some a => if retirementDue s a then s.emptyRecordSlot n else s
  | none => s

/-- AUTOMATIC_RETIREMENT (R118). -/
def execAutomaticRetirement (n : Nat) (s : State) : Result := takeEvent s (State.retireEnded · n)

/-! ### Bells on zones (R55, R59) -/

/-- DEFERRAL_DEADLINE_EXPIRY (R59). -/
def execDeferralDeadlineExpiry (z : Nat) (s : State) : Result := takeEvent s (State.expireDeferral · z)

/-- R55: a Sounding record whose remaining ticks have reached 0 becomes Idle. -/
def BellRecord.endIfRunOut : BellRecord → BellRecord
  | .sounding pattern duration ticks tag => if ticks = 0 then .idle else .sounding pattern duration ticks tag
  | b => b

/-- SOUNDING_END (R55) on one zone. -/
def execSoundingEnd (z : Nat) (s : State) : Result :=
  takeEvent s (fun s => s.modifyZone z (fun x => { x with bell := x.bell.endIfRunOut }))

end Sys2Proof.Machine
end

