-- ==== Sys2Proof/Machine/RoomCalls.lean ====
section
/-! DEFINITION. Room Calls (chapter 8): presses, ANSWER CALL, CLEAR CALL and the requests of the CALL table. -/

namespace Sys2Proof.Machine

/-- The call that a zone holds. -/
def callOf (s : State) (z : Nat) : Option Call := s.calls.calls.find? (fun c => c.zone == z)

/-- R128: the effective mode is at or above Drill. -/
def duringEvacuation (s : State) : Bool := decide (Mode.drill.level ≤ s.modes.effective.level)

/-- R128, second case: a press of a zone that holds a call. -/
def Call.repeat (c : Call) (evacuating : Bool) : Call :=
  { c with repeats := min 15 (c.repeats + 1), duringEvacuation := c.duringEvacuation || evacuating }

/-- R128, first case: the call that a press appends. -/
def newCall (s : State) (z : Nat) : Call :=
  { zone := z, firstPress := s.time.stamp, repeats := 0, duringEvacuation := duringEvacuation s }

/-- R128: one press. -/
def State.press (s : State) (z : Nat) : State :=
  match callOf s z with
  | some _ =>
    { s with calls := { s.calls with
        calls := s.calls.calls.map (fun c => if c.zone = z then c.repeat (duringEvacuation s) else c) } }
  | none =>
    if s.calls.calls.length < 32 then
      ({ s with calls := { s.calls with calls := s.calls.calls ++ [newCall s z] } } : State).raise .call
    else ({ s with calls := { s.calls with overflow := true } } : State).raise .call

/-- R129: the internal ANNOUNCE that ANSWER CALL makes. -/
def answerFields (z : Nat) : AnnounceFields :=
  { source := 0, priority := 1, coverage := 0, zones := single 64 z, maxDuration := 300, waitLimit := 30, talkBack := true }

/-- R129: ANSWER CALL of a zone. -/
def answerCallAnswer (z : Nat) (s : State) : Answer :=
  if 63 < z then refuse s .range .empty
  else if (callOf s z).isNone then refuse s .notFound .empty
  else announceFor s (answerFields z) (some z)

/-- ANSWER_CALL (R129). -/
def execAnswerCall (z : Nat) (s : State) : Result := takeRequest s 21 (answerCallAnswer z)

/-- R132: a zone's call is retired and the overflow flag cleared; `body` is the reply's. -/
def clearCallAnswer (z : Nat) (body : ReplyBody) (s : State) : Answer :=
  if 63 < z then refuse s .range body
  else if (callOf s z).isNone then refuse s .notFound body
  else
    let s := s.retireCallOf (some z)
    { state := { s with calls := { s.calls with overflow := false } }, result := .ok, body := body }

/-- CLEAR_CALL (R132). -/
def execClearCall (z : Nat) (s : State) : Result := takeRequest s 22 (clearCallAnswer z .empty)

/-- RETIRE_CALL (R132). -/
def execRetireCall (z : Nat) (s : State) : Result := takeRequest s codeRetire (clearCallAnswer z (.key (.call z)))

/-- R133: the live announcement that answers a zone, with its state. -/
def answering (s : State) (z : Nat) : Option (Nat × AnnState) :=
  (s.arb.slots.find? (fun e => e.2.live && e.2.answering == some z)).map (fun e => (e.1, e.2.state))

/-- R133: a call in a reply, with its place in the list. -/
def callView (s : State) (c : Call) : RecordView := .call c (s.calls.calls.idxOf c) (answering s c.zone)

/-- The call that stands after a zone's call in the list (R133). -/
def callAfter (z : Nat) : List Call → Option Call
  | [] => none
  | c :: rest => if c.zone = z then rest.head? else callAfter z rest

/-- R133: the call that NEXT finds. -/
def callFollowing (s : State) (start : NextStart) (z : Nat) : Option Call :=
  match start with
  | .given => callAfter z s.calls.calls
  | _ => s.calls.calls.head?

/-- LOOKUP_CALL (R133). -/
def execLookupCall (z : Nat) (s : State) : Result :=
  takeRequest s codeLookup (fun s => lookupAnswer s (decide (63 < z)) (.call z) ((callOf s z).map (callView s)))

/-- NEXT_CALL (R133; a zone above 63 by 3.7). -/
def execNextCall (start : NextStart) (z : Nat) (s : State) : Result :=
  takeRequest s codeNext (fun s =>
    nextAnswer s start (isGivenKey start && decide (63 < z)) (.call z)
      ((callFollowing s start z).map (fun c => (.call c.zone, callView s c))))

end Sys2Proof.Machine
end

