-- ==== Sys2Proof/Machine/Evacuation.lean ====
section
/-! DEFINITION. Campus Modes, Drills and Evacuation (chapter 9): SET BASE MODE, the drill programs, the requests and the events of the
evacuation record, the panel monitor and the drill key. -/

namespace Sys2Proof.Machine

/-! ### Base mode -/

/-- R134: SET BASE MODE. -/
def setBaseModeAnswer (code : Nat) (s : State) : Answer :=
  match baseModeOf code with
  | none => refuse s .range .empty
  | some m =>
    let s' := ({ s with modes := { s.modes with base := m } } : State).formMode
    { state := s', result := .ok, body := .modes s'.modes.base s'.modes.effective }

/-- SET_BASE_MODE (R134). -/
def execSetBaseMode (code : Nat) (s : State) : Result := takeRequest s 18 (setBaseModeAnswer code)

/-! ### The requests of the evacuation record -/

/-- R143: a request on the evacuation record that is accepted replies OK with the record as it stands after it. -/
def recordAnswer (s : State) : Answer := { state := s, result := .ok, body := .evacuation s.modes.record }

/-- R144: START DRILL of a program. -/
def startDrillAnswer (program : Nat) (s : State) : Answer :=
  if 7 < program then refuse s .range .empty
  else if (s.modes.programs.get program).isNone then refuse s .notFound .empty
  else if s.modes.effective = .alarm then refuse s .modeRefused .empty
  else if s.modes.record.isSome then refuse s .busy .empty
  else recordAnswer (s.createDrill program)

/-- START_DRILL (R144). -/
def execStartDrill (program : Nat) (s : State) : Result := takeRequest s 23 (startDrillAnswer program)

/-- R146: SILENCE: in Sounding the tone ends; in any other phase nothing changes. -/
def silenceAnswer (s : State) : Answer :=
  match s.modes.record with
  | none => refuse s .notFound .empty
  | some r => recordAnswer (if r.phase = .sounding then s.setRecord (some (liftTone r)) else s)

/-- SILENCE (R146). -/
def execSilence (s : State) : Result := takeRequest s 24 silenceAnswer

/-- R149: ALL CLEAR. -/
def allClearAnswer (s : State) : Answer :=
  match s.modes.record with
  | none => refuse s .notFound .empty
  | some r =>
    if r.kind = .alarm ∧ s.modes.panel = .alarm then refuse s .panelActive .empty
    else recordAnswer (if r.phase = .closing then s else s.takeAllClear r)

/-- ALL_CLEAR (R149). -/
def execAllClear (s : State) : Result := takeRequest s 25 allClearAnswer

/-- R147: MARK BUILDING. -/
def markBuildingAnswer (b : Nat) (s : State) : Answer :=
  if 7 < b then refuse s .range .empty
  else match s.modes.record with
    | none => refuse s .notFound .empty
    | some r =>
      if !mem (musterSetOf s r.program) b then refuse s .range .empty
      else if r.phase = .closing then refuse s .busy .empty
      else recordAnswer (if (r.clears[b]?.getD none).isSome then s else s.clearBuilding r b true)

/-- MARK_BUILDING (R147). -/
def execMarkBuilding (b : Nat) (s : State) : Result := takeRequest s 26 (markBuildingAnswer b)

/-! ### The PROGRAM table -/

/-- R48: the distinct patterns that a drill program names. -/
def patternsNamed (f : ProgramFields) : List Nat := if f.tone = f.allClear then [f.tone] else [f.tone, f.allClear]

/-- The evacuation record names a program. -/
def recordNames (s : State) (n : Nat) : Bool :=
  match s.modes.record with
  | some r => r.program == some n
  | none => false

/-- R48: the counts after a program has been inserted, replaced or retired. -/
def Store.renamePatterns (st : Store) (old new : List Nat) : Store := new.foldl Store.addRef (old.foldl Store.dropRef st)

/-- R141: AMEND of the PROGRAM table. -/
def amendProgramAnswer (n : Nat) (f : ProgramFields) (s : State) : Answer :=
  let key : ReplyBody := .key (.program n)
  if 7 < n ∨ 15 < f.tone ∨ 15 < f.allClear then refuse s .range key
  else if !(members f.zones).all (fun z => (s.zones.get z).isSome) then refuse s .range key
  else if (s.store.patterns.get f.tone).isNone ∨ (s.store.patterns.get f.allClear).isNone then refuse s .notFound key
  else if recordNames s n then refuse s .inUse key
  else
    let old := s.modes.programs.get n
    let new : Program := { fields := clampProgram f, lastResult := old.bind (·.lastResult) }
    let store := s.store.renamePatterns ((old.map (fun p => patternsNamed p.fields)).getD []) (patternsNamed f)
    { state := { s with store := store, modes := { s.modes with programs := s.modes.programs.insert n new } }
      result := okOrClamped (clampProgram f != f), body := .record (.program n) (.programAmended new) }

/-- R142: RETIRE of the PROGRAM table. -/
def retireProgramAnswer (n : Nat) (s : State) : Answer :=
  let key : ReplyBody := .key (.program n)
  if 7 < n then refuse s .range key
  else match s.modes.programs.get n with
    | none => refuse s .notFound key
    | some p =>
      if recordNames s n then refuse s .inUse key
      else { state := { s with store := s.store.renamePatterns (patternsNamed p.fields) []
                               modes := { s.modes with programs := s.modes.programs.erase n } }
             result := .ok, body := key }

/-- R142: a program in a reply, with the evacuation record and its elapsed seconds when the record names the program. -/
def programView (s : State) (n : Nat) (p : Program) : RecordView :=
  .program p (match s.modes.record with
    | some r => if r.program = some n then some (r, elapsedSince s r.startSecond) else none
    | none => none)

/-- AMEND_PROGRAM (R141). -/
def execAmendProgram (n : Nat) (f : ProgramFields) (s : State) : Result := takeRequest s codeAmend (amendProgramAnswer n f)

/-- RETIRE_PROGRAM (R142). -/
def execRetireProgram (n : Nat) (s : State) : Result := takeRequest s codeRetire (retireProgramAnswer n)

/-- LOOKUP_PROGRAM (R142). -/
def execLookupProgram (n : Nat) (s : State) : Result :=
  takeRequest s codeLookup (fun s =>
    lookupAnswer s (decide (7 < n)) (.program n) ((s.modes.programs.get n).map (programView s n)))

/-- NEXT_PROGRAM (R142). -/
def execNextProgram (start : NextStart) (n : Nat) (s : State) : Result :=
  takeRequest s codeNext (fun s =>
    nextAnswer s start (isGivenKey start && decide (7 < n)) (.program n)
      ((nextIn s.modes.programs start n).map (fun e => (.program e.1, programView s e.1 e.2))))

/-! ### The tones and the two intervals -/

/-- The remaining ticks of the drive have reached 0. -/
def driveRunOut (r : EvacRecord) : Bool :=
  match r.drive with
  | some d => d.ticks == 0
  | none => false

/-- R146: the evacuation tone's ticks have reached 0: the drive lifts and the phase becomes Mustered or Sweep. -/
def State.endEvacuationTone (s : State) : State :=
  match s.modes.record with
  | some r => if r.phase = .sounding ∧ driveRunOut r then s.setRecord (some (liftTone r)) else s
  | none => s

/-- EVACUATION_TONE_END (R146). -/
def execEvacuationToneEnd (s : State) : Result := takeEvent s State.endEvacuationTone

/-- R149 and R150: the all-clear tone's ticks have reached 0: the record closes with its fixed result. -/
def State.endAllClearTone (s : State) : State :=
  match s.modes.record with
  | some r =>
    if r.phase = .closing ∧ driveRunOut r then (s.closeRecord (r.fixedResult.getD .endedEarly)).formMode else s
  | none => s

/-- ALL_CLEAR_TONE_END (R149). -/
def execAllClearToneEnd (s : State) : Result := takeEvent s State.endAllClearTone

/-- R148: the conditions under which an expired interval sets its flag: the muster is not complete and the phase is not Closing. -/
def stillEvacuating (r : EvacRecord) : Bool := r.musteredAt.isNone && r.phase != .closing

/-- R148: the evacuation target has expired: the overdue flag becomes set, with an EVAC event. -/
def State.expireTarget (s : State) : State :=
  match s.modes.record, recordProgram s with
  | some r, some p =>
    if intervalExpired s r.startSecond p.fields.target && stillEvacuating r && !r.overdue then
      (s.setRecord (some { r with overdue := true })).raise .evac
    else s
  | _, _ => s

/-- EVACUATION_TARGET_EXPIRY (R148). -/
def execEvacuationTargetExpiry (s : State) : Result := takeEvent s State.expireTarget

/-- R148: the muster deadline has expired: the muster-late flag becomes set, with an EVAC event. -/
def State.expireDeadline (s : State) : State :=
  match s.modes.record, recordProgram s with
  | some r, some p =>
    if intervalExpired s r.startSecond p.fields.deadline && stillEvacuating r && !r.musterLate then
      (s.setRecord (some { r with musterLate := true })).raise .evac
    else s
  | _, _ => s

/-- MUSTER_DEADLINE_EXPIRY (R148). -/
def execMusterDeadlineExpiry (s : State) : Result := takeEvent s State.expireDeadline

/-! ### The fire-panel monitor -/

/-- R137: a window is alarm-indicating when its last sample is active or its edge count is 1 or more. -/
def ModeControl.indicating (m : ModeControl) : Bool := m.lastSample || decide (1 ≤ m.edges)

/-- R137: a window whose edge count is 9 is chatter. -/
def ModeControl.chatter (m : ModeControl) : Bool := decide (9 ≤ m.edges)

/-- R138: what a judged window does to the panel state and its two runs. -/
def ModeControl.judge (m : ModeControl) (clearWindows : Nat) : ModeControl :=
  match m.panel, m.indicating with
  | .normal, true => if 2 ≤ m.alarmRun + 1 then { m with panel := .alarm, alarmRun := 0 } else { m with alarmRun := m.alarmRun + 1 }
  | .normal, false => { m with alarmRun := 0 }
  | .alarm, false =>
    if clearWindows ≤ m.quietRun + 1 then { m with panel := .normal, quietRun := 0 } else { m with quietRun := m.quietRun + 1 }
  | .alarm, true => { m with quietRun := 0 }

/-- R145: a change of the panel state reaches the evacuation record, and the effective mode is formed afresh. -/
def State.panelChanged (s : State) : State :=
  match s.modes.panel with
  | .alarm => s.panelToAlarm
  | .normal => s.panelToNormal

/-- R137 and R138: the end of a window. -/
def State.endWindow (s : State) : State :=
  let m := s.modes
  let judged := m.judge s.cal.site.clearWindows
  let changed := judged.panel != m.panel
  let s := ({ s with modes := { judged with windowTicks := 0, edges := 0 } } : State).raiseIf (m.chatter || changed) .panel
  if changed then s.panelChanged else s

/-- PANEL_WINDOW_END (R137): a window ends once its 32 ticks have passed. -/
def execPanelWindowEnd (s : State) : Result := takeEvent s (fun s => if 32 ≤ s.modes.windowTicks then s.endWindow else s)

/-! ### The drill key -/

/-- The key monitor set. -/
def State.setKey (s : State) (k : KeyMonitor) : State := { s with modes := { s.modes with key := k } }

/-- KEY_SHORT_PRESS (R139): an inactive sample has ended a press before its count reached 48. -/
def execKeyShortPress (s : State) : Result :=
  takeEvent s (fun s => match s.modes.key with
    | .released _ => (s.setKey .ready).raise .key
    | _ => s)

/-- R139: what a long press does. -/
def State.longPress (s : State) : State :=
  if s.modes.effective = .alarm then s.raise .key
  else match s.modes.record with
    | none =>
      if s.cal.site.keyEnable && (s.modes.programs.get 0).isSome then (s.createDrill 0).raise .evac else s.raise .key
    | some r => if r.kind = .drill ∧ r.phase ≠ .closing then s.takeAllClear r else s.raise .key

/-- KEY_LONG_PRESS (R139): the count has reached 48. -/
def execKeyLongPress (s : State) : Result :=
  takeEvent s (fun s => match s.modes.key with
    | .timing n => if 48 ≤ n then (s.setKey .spent).longPress else s
    | _ => s)

end Sys2Proof.Machine
end

