-- ==== Sys2Proof/Machine/ClockLines.lean ====
section
/-! DEFINITION. Secondary Clock Lines (chapter 5): LINE CONTROL, the requests of the LINE table, the driver-slot arbiter, and the events of
a pulse, a frame and a fault. -/

namespace Sys2Proof.Machine

/-! ### LINE CONTROL -/

/-- The reply to an accepted LINE CONTROL carries the line record as it stands after the command (5.7). -/
def lineAnswer (s : State) (n : Nat) (l : Line) (result : ResultCode) : Answer :=
  { state := s.modifyLine n (fun _ => l), result := result, body := .lineRecord l }

/-- The kind of line is Stopped or Faulted. -/
def Line.outOfService (l : Line) : Bool := l.state == .stopped || l.state == .faulted

/-- R82: RUN. -/
def runLineAnswer (n : Nat) (s : State) : Answer :=
  match s.lines[n]? with
  | none => refuse s .range .empty
  | some l =>
    if !l.outOfService then lineAnswer s n l .ok
    else match l.kind with
      | .coded => lineAnswer s n { l with state := .following, fault := .none } .ok
      | .impulse =>
        if !s.time.valid then refuse s .timeInvalid .empty
        else lineAnswer s n (Line.evaluate (targetNow s) { l with fault := .none }) .ok

/-- LINE_CONTROL_RUN (R82). -/
def execLineControlRun (n : Nat) (s : State) : Result := takeRequest s 27 (runLineAnswer n)

/-- R83: STOP of one line: a waiting owed pulse is withdrawn; a pulse or a frame in progress runs to its end. -/
def Line.stop (l : Line) : Line :=
  if l.state = .unset then l else { l.withdrawWait with state := .stopped, predicted := 0 }

/-- R83: STOP. -/
def stopLineAnswer (n : Nat) (s : State) : Answer :=
  match s.lines[n]? with
  | none => refuse s .range .empty
  | some l => lineAnswer s n l.stop .ok

/-- LINE_CONTROL_STOP (R83). -/
def execLineControlStop (n : Nat) (s : State) : Result := takeRequest s 27 (stopLineAnswer n)

/-- R84: SET POSITION of one line, before its evaluation. -/
def Line.setPosition (l : Line) (position : Nat) (polarity : Option Polarity) : Line :=
  { l.withdrawWait with position := min 719 position, polarity := polarity.getD l.polarity, fault := .none }

/-- R84: SET POSITION. -/
def setPositionAnswer (n position : Nat) (polarity : Option Polarity) (s : State) : Answer :=
  match s.lines[n]? with
  | none => refuse s .range .empty
  | some l =>
    if l.kind = .coded then refuse s .range .empty
    else if !s.time.valid then refuse s .timeInvalid .empty
    else if l.pulsing then refuse s .busy .empty
    else lineAnswer s n (Line.evaluate (targetNow s) (l.setPosition position polarity)) (okOrClamped (decide (719 < position)))

/-- LINE_CONTROL_SET_POSITION (R84). -/
def execLineControlSetPosition (n position : Nat) (polarity : Option Polarity) (s : State) : Result :=
  takeRequest s 27 (setPositionAnswer n position polarity)

/-! ### The LINE table -/

/-- R85: a line after an AMEND, before the evaluation of a running line. -/
def Line.amend (l : Line) (kind : LineKind) (hold fast width : Nat) : Line :=
  let l' : Line := { l with kind := kind, hold := hold, fast := fast, width := width }
  match l.kind, kind with
  | .impulse, .coded => { l'.withdrawWait with state := .stopped, predicted := 0 }
  | .coded, .impulse => { l' with state := .unset, position := 0, polarity := .a, fault := .none }
  | _, _ => l'

/-- R85: AMEND of the LINE table. -/
def amendLineAnswer (n : Nat) (f : LineFields) (s : State) : Answer :=
  let key : ReplyBody := .key (.line n)
  match s.lines[n]?, lineKindOf f.kind with
  | some l, some kind =>
    let hold := min 180 f.hold
    let fast := clampNat 1 15 f.fast
    let width := clampNat 4 15 f.width
    if kind ≠ l.kind ∧ l.driven then refuse s .busy key
    else
      let l' := l.amend kind hold fast width
      let changed := hold != l.hold || fast != l.fast || width != l.width
      let l' := if kind = l.kind ∧ changed then l'.evaluateRunning (targetNow s) else l'
      { state := s.modifyLine n (fun _ => l')
        result := okOrClamped (decide (180 < f.hold) || outside 1 15 f.fast || outside 4 15 f.width)
        body := .record (.line n) (.lineAmended l') }
  | _, _ => refuse s .range key

/-- R86: a line in a reply, with the target and the distance of a running line while time is valid. -/
def lineView (s : State) (l : Line) : RecordView :=
  .line l (if l.state.running && s.time.valid then some (targetNow s, dialDistance (targetNow s) l.effective) else none)

/-- AMEND_LINE (R85). -/
def execAmendLine (n : Nat) (f : LineFields) (s : State) : Result := takeRequest s codeAmend (amendLineAnswer n f)

/-- LOOKUP_LINE (R86). -/
def execLookupLine (n : Nat) (s : State) : Result :=
  takeRequest s codeLookup (fun s => lookupAnswer s (decide (11 < n)) (.line n) ((s.lines[n]?).map (lineView s)))

/-- R86: the line that NEXT finds. -/
def lineFollowing (s : State) (start : NextStart) (n : Nat) : Option (Key × RecordView) :=
  (s.lines[nextNumber start n]?).map (fun l => (.line (nextNumber start n), lineView s l))

/-- NEXT_LINE (R86). -/
def execNextLine (start : NextStart) (n : Nat) (s : State) : Result :=
  takeRequest s codeNext (fun s => nextAnswer s start (isGivenKey start && decide (11 < n)) (.line n) (lineFollowing s start n))

/-! ### Pulses -/

/-- R72: the free slot that the waiting line is granted: a free value among the free slots (log 3). -/
def chosenSlot (s : State) : Option Nat :=
  (freeSlots s)[Config.slotChoice s.freeCount % (freeSlots s).length]?

/-- R71 and R72: one grant: the lowest-numbered waiting line starts its pulse in a free slot. -/
def State.grantSlot (s : State) : State :=
  match waitingLine s, chosenSlot s with
  | some n, some slot => { s.modifyLine n (·.startPulse slot) with freeCount := s.freeCount + 1 }
  | _, _ => s

/-- PULSE_START (R72). -/
def execPulseStart (s : State) : Result := takeEvent s State.grantSlot

/-- R71 and R80: the completion of a line's pulse, W ticks after its start. -/
def State.completePulse (s : State) (n : Nat) : State :=
  match s.lines[n]? with
  | some l =>
    if l.pulseDue then (s.modifyLine n (fun _ => (l.complete (targetNow s)).1)).raiseIf (l.complete (targetNow s)).2 .line else s
  | none => s

/-- PULSE_COMPLETION (R71). -/
def execPulseCompletion (n : Nat) (s : State) : Result := takeEvent s (State.completePulse · n)

/-- FAST_PULSE_WAIT (R79): an Advancing line that owes no pulse begins to wait once 16 × F ticks have passed since its last pulse start. -/
def execFastPulseWait (n : Nat) (s : State) : Result := takeEvent s (fun s => s.modifyLine n Line.beginFastWait)

/-- R81: the fault of one line: its pulse is aborted or its frame ended. -/
def Line.faultWith (l : Line) (cause : FaultCause) : Line :=
  { l.dropOwed with frame := none, state := .faulted, fault := cause, predicted := 0 }

/-- R81: a fault sensed on a line while it is driven. -/
def State.senseFault (s : State) (n : Nat) (overcurrent openCircuit : Bool) : State :=
  match s.lines[n]? with
  | some l =>
    if l.driven && (overcurrent || openCircuit) then
      (s.modifyLine n (·.faultWith (causeOf overcurrent openCircuit))).raise .line
    else s
  | none => s

/-- LINE_FAULT (R81). -/
def execLineFault (n : Nat) (overcurrent openCircuit : Bool) (s : State) : Result :=
  takeEvent s (State.senseFault · n overcurrent openCircuit)

/-- R88: a frame ends 12 ticks after its boundary. -/
def Line.endFrame (l : Line) : Line :=
  match l.frame with
  | some f => if 12 ≤ f.ticks then { l with frame := none } else l
  | none => l

/-- CODED_FRAME_END (R88). -/
def execCodedFrameEnd (n : Nat) (s : State) : Result := takeEvent s (fun s => s.modifyLine n Line.endFrame)

end Sys2Proof.Machine
end

