-- ==== Sys2Proof/Machine/BuildingLink.lean ====
section
/-! DEFINITION. Building Link (chapter 10): the slots and their rotation, polls and probes, misses and good reports, and the requests of the
BUILDING table. -/

namespace Sys2Proof.Machine

/-! ### The BUILDING table -/

/-- R161: a building in a reply: its record, its zone count, and the LRATE and UNITS values sampled at the last release. -/
def buildingView (s : State) (n : Nat) : Option RecordView :=
  (s.link.buildings[n]?).map (fun b =>
    .building b ((s.zoneCounts[n]?).getD 0) s.link.straps.rate s.link.straps.units.val)

/-- LOOKUP_BUILDING (R161). -/
def execLookupBuilding (n : Nat) (s : State) : Result :=
  takeRequest s codeLookup (fun s => lookupAnswer s (decide (7 < n)) (.building n) (buildingView s n))

/-- R161: the building that NEXT finds. -/
def buildingFollowing (s : State) (start : NextStart) (n : Nat) : Option (Key × RecordView) :=
  (buildingView s (nextNumber start n)).map (fun v => (.building (nextNumber start n), v))

/-- NEXT_BUILDING (R161). -/
def execNextBuilding (start : NextStart) (n : Nat) (s : State) : Result :=
  takeRequest s codeNext (fun s =>
    nextAnswer s start (isGivenKey start && decide (7 < n)) (.building n) (buildingFollowing s start n))

/-! ### Slots and rotation (R155) -/

/-- A present unit that is Lost. -/
def lostUnit (s : State) (b : Nat) : Bool :=
  match s.link.buildings[b]? with
  | some x => x.present && x.link == .lost
  | none => false

/-- A present unit that is Unknown or Online. -/
def answeringUnit (s : State) (b : Nat) : Bool :=
  match s.link.buildings[b]? with
  | some x => x.present && x.link != .lost
  | none => false

/-- R155: the building numbers in circular order from the one after the mark, or from 0 when the mark is none. -/
def rotation (mark : Option Nat) : List Nat :=
  match mark with
  | some m => (List.range 8).map (fun i => (m + 1 + i) % 8)
  | none => List.range 8

/-- R155: the slot is a probe slot: the slot counter is 0 and at least one present unit is Lost. -/
def probeSlot (s : State) : Bool := s.link.slotCounter == 0 && (List.range 8).any (lostUnit s)

/-- R155: the Lost unit that a probe slot goes to. -/
def nextProbed (s : State) : Option Nat := (rotation s.link.lastProbed).find? (lostUnit s)

/-- R155: the unit that an ordinary slot goes to; none in an idle slot. -/
def nextPolled (s : State) : Option Nat := (rotation s.link.lastPolled).find? (answeringUnit s)

/-! ### Polls and probes (R156) -/

/-- R156: the members of a pending set that the Schedule Store still holds. -/
def Building.prunePending (b : Building) (held : PatternSet) : Building := { b with pending := b.pending &&& held }

/-- R156: the pattern definition that a poll carries: the lowest member of the pruned pending set, with its steps. -/
def definitionFor (s : State) (b : Building) : Option (Nat × List PatternStep) :=
  ((members (b.pending &&& s.store.held)).head?).map (fun p =>
    (p, ((s.store.patterns.get p).map (·.steps)).getD []))

/-- R156: the building record after its poll has been assembled: the pruned pending set and the pattern in flight. -/
def Building.afterPoll (b : Building) (held : PatternSet) : Building :=
  let b := b.prunePending held
  { b with inFlight := ((members b.pending).head?).map (fun p => { pattern := p, amended := false }) }

/-- R156: the zones of a building with their delivered values, in order of zone number. -/
def pollZones (s : State) (b : Nat) : List (Nat × Delivered) :=
  (s.zones.filter (fun e => e.2.config.building == b)).map (fun e => (e.1, deliveredOf s e.1 e.2))

/-- R156: a frame with an address and the campus time and mode as they stand. -/
def frameTo (s : State) (address : Nat) (zones : List (Nat × Delivered)) (pattern : Option (Nat × List PatternStep)) : LinkFrame :=
  { address := address, day := s.time.civil.day, second := s.time.civil.second, valid := s.time.valid, mode := s.modes.effective,
    zones := zones, pattern := pattern }

/-- R156: the poll of building n, from the state as it stands. -/
def pollFrame (s : State) (n : Nat) : LinkFrame :=
  frameTo s n (pollZones s n) ((s.link.buildings[n]?).bind (definitionFor s))

/-- R156: the probe of building n: the number plus 8, with no zone values and no definition. -/
def probeFrame (s : State) (n : Nat) : LinkFrame := frameTo s (n + 8) [] none

/-- R155: the slot has been given to a building, and its frame sent. -/
def State.sendFrame (s : State) (n : Nat) (probe : Bool) (f : LinkFrame) : State :=
  { s with link := { s.link with
      slotOpen := false
      exchange := some { building := n, probe := probe }
      lastFrame := some f } }

/-- R155 and R156: an ordinary slot: the unit next after the last polled one is polled. -/
def State.poll (s : State) : State :=
  match nextPolled s with
  | some n =>
    let s' := (s.modifyBuilding n (·.afterPoll s.store.held)).sendFrame n false (pollFrame s n)
    { s' with link := { s'.link with lastPolled := some n } }
  | none => { s with link := { s.link with slotOpen := false } }

/-- R155 and R156: a probe slot: the Lost unit next after the last probed one is probed. -/
def State.probe (s : State) : State :=
  match nextProbed s with
  | some n =>
    let s' := s.sendFrame n true (probeFrame s n)
    { s' with link := { s'.link with lastProbed := some n } }
  | none => s

/-- A slot is there to be given: a tick has begun it, and the exchange of the slot before is over. -/
def slotReady (s : State) : Bool := s.link.slotOpen && s.link.exchange.isNone

/-- POLL (R156): the slot is ordinary. -/
def execPoll (s : State) : Result := takeEvent s (fun s => if slotReady s && !probeSlot s then s.poll else s)

/-- PROBE (R156): the slot is a probe slot. -/
def execProbe (s : State) : Result := takeEvent s (fun s => if slotReady s && probeSlot s then s.probe else s)

/-! ### Misses (R157) -/

/-- R157: a miss on a building record. -/
def Building.miss (b : Building) : Building :=
  match b.link with
  | .lost => b
  | _ =>
    if 3 ≤ b.misses + 1 then { b with misses := 3, link := .lost, levelsKnown := false, inFlight := none }
    else { b with misses := b.misses + 1 }

/-- The exchange is over. -/
def State.endExchange (s : State) : State := { s with link := { s.link with exchange := none } }

/-- R157: a miss of building n: at the third, LINK and the loss of the building's paths (R100). -/
def State.miss (s : State) (n : Nat) : State :=
  match s.link.buildings[n]? with
  | none => s
  | some b =>
    let s' := s.modifyBuilding n Building.miss
    if b.link ≠ .lost ∧ b.miss.link = .lost then (s'.raise .link).loseBuildingPaths n else s'

/-- R157: the exchange in progress ends in a miss. -/
def State.missExchange (s : State) : State :=
  match s.link.exchange with
  | some e => (s.miss e.building).endExchange
  | none => s

/-- RESPONSE_MISS (R157). -/
def execResponseMiss (s : State) : Result := takeEvent s State.missExchange

/-! ### Good reports (R158 to R160) -/

/-- R157: the report lists at most 16 zones, each zone number once, with every field within its encoding. A zone number above 63, which no zone
has, and an echo of 16 to 254, which no pattern has, are taken to lie outside their encodings although their bytes hold them, so that the
whole report is a miss (DESIGN CHOICE, log 21). -/
def goodReportFrame (r : Report) : Bool :=
  decide (r.zones.length ≤ 16) && decide ((r.zones.map (·.zone)).Nodup) &&
    r.zones.all (fun x => decide (x.zone ≤ 63) && decide (x.count ≤ 255)) &&
    (match r.echo with
      | some p => decide (p ≤ 15)
      | none => true)

/-- R159: the entries of a report that are taken: those of held zones of the building. -/
def entriesTaken (s : State) (n : Nat) (r : Report) : List ZoneReport :=
  r.zones.filter (fun x => match s.zones.get x.zone with
    | some z => z.config.building == n
    | none => false)

/-- R127: a zone may give a press: it is a Room with its call switch present. -/
def callRoom (s : State) (z : Nat) : Bool :=
  match s.zones.get z with
  | some x => x.config.kind == .room && x.config.callSwitch
  | none => false

/-- R127: the zones that are pressed in a report, in order of zone number: an active level after an inactive one, with the call switch there
at both reports. -/
def presses (s : State) (b : Building) (taken : List ZoneReport) : List Nat :=
  (sortByKey (·.zone) taken).filterMap (fun x =>
    if x.level && !mem b.callLevels x.zone && mem b.eligible x.zone && callRoom s x.zone then some x.zone else none)

/-- R159: the building record with one taken entry's level and call eligibility stored. -/
def Building.storeEntry (s : State) (b : Building) (x : ZoneReport) : Building :=
  { b with callLevels := putMember b.callLevels x.zone x.level, eligible := putMember b.eligible x.zone (callRoom s x.zone) }

/-- R160: the pattern echo: the number in flight, not amended since, leaves the pending set; the pattern in flight becomes none. -/
def Building.takeEcho (b : Building) (probe : Bool) (echo : Option Nat) : Building :=
  let pending := match b.inFlight, echo with
    | some f, some p => if !probe && f.pattern == p && !f.amended then eraseMember b.pending p else b.pending
    | _, _ => b.pending
  { b with pending := pending, inFlight := none }

/-- R158: the link state and the misses after a good report; a unit that was Lost has every held pattern pending. -/
def Building.answered (b : Building) (held : PatternSet) : Building :=
  { b with misses := 0, link := .online, pending := if b.link = .lost then held else b.pending }

/-- R158 to R160: the building record after a good report. -/
def Building.afterReport (s : State) (b : Building) (probe : Bool) (r : Report) (taken : List ZoneReport) : Building :=
  let b := taken.foldl (Building.storeEntry s) (b.answered s.store.held)
  { b.takeEcho probe r.echo with clearLevel := r.clear, ampFault := r.ampFault, levelsKnown := true }

/-- R159: the pairs of a report are handed to the Call List and to the Mode and Evacuation Controller, when the levels known field is yes. -/
def State.handPairs (s : State) (n : Nat) (b : Building) (r : Report) (taken : List ZoneReport) : State :=
  if b.levelsKnown then
    let s := s.forEach (presses s b taken) State.press
    let s := if r.clear && !b.clearLevel then s.risingClear n else s
    if r.ampFault && !b.ampFault then s.risingAmpFault n else s
  else s

/-- R158 to R160: a good report of building n is taken. -/
def State.takeReport (s : State) (n : Nat) (probe : Bool) (r : Report) : State :=
  match s.link.buildings[n]? with
  | none => s
  | some b =>
    let taken := entriesTaken s n r
    let s := (s.modifyBuilding n (fun _ => b.afterReport s probe r taken)).raiseIf (b.link == .lost) .link
    let s := taken.foldl (fun s x => s.takeCount x.zone x.count) s
    s.handPairs n b r taken

/-- R157: the slot of the exchange in progress has ended: the tick that begins a slot has come since its frame was sent. -/
def slotEnded (s : State) : Bool := s.link.slotOpen

/-- R157 and R158: the report is a good one of the exchange: from the unit addressed, within its encodings, and complete before the slot has
ended. -/
def isGoodReport (s : State) (e : Exchange) (r : Report) : Bool := r.address == e.building && goodReportFrame r && !slotEnded s

/-- GOOD_REPORT (R158), with the report received in the response window of the exchange in progress. A report that is not a good one of the
exchange is a miss (R157); one that belongs to no exchange is ignored. -/
def execGoodReport (r : Report) (s : State) : Result :=
  takeEvent s (fun s => match s.link.exchange with
    | none => s
    | some e => if isGoodReport s e r then (s.takeReport e.building e.probe r).endExchange else s.missExchange)

end Sys2Proof.Machine
end

