-- ==== Sys2Proof/Machine/Formats.lean ====
section
/-! DEFINITION. The layouts of 11.7: the field encodings of Table 11-3, the frame check of R172, and the bytes of every reply, poll and
probe. Where 11.7 leaves a place open, log 9 (frames) or log 20 (records in replies) says what is taken: a DESIGN CHOICE. -/

namespace Sys2Proof.Machine

/-! ### The frame check (R172) -/

/-- R172: one step of the check register: a shift, with the polynomial x^16 + x^12 + x^5 + 1 when a one leaves it. -/
def checkShift (r : BitVec 16) : BitVec 16 := if r.getLsbD 15 then (r <<< 1) ^^^ 0x1021 else r <<< 1

/-- R172: a byte enters with its most significant bit first. -/
def checkByte (r : BitVec 16) (b : Byte) : BitVec 16 :=
  (List.range 8).foldl (fun r _ => checkShift r) (r ^^^ ((b.setWidth 16) <<< 8))

/-- R172: the check of the bytes of a frame: the register starts at all ones and the result is not inverted. -/
def frameCheck (bytes : List Byte) : BitVec 16 := bytes.foldl checkByte 0xFFFF

/-! ### Field encodings (Table 11-3) -/

/-- A number in one byte. -/
def enc1 (n : Nat) : List Byte := [BitVec.ofNat 8 n]

/-- A number in two bytes, high byte first. -/
def enc2 (n : Nat) : List Byte := [BitVec.ofNat 8 (n / 256), BitVec.ofNat 8 n]

/-- A number in three bytes, high byte first (second-of-day). -/
def enc3 (n : Nat) : List Byte := BitVec.ofNat 8 (n / 65536) :: enc2 n

/-- A number in four bytes, high byte first (elapsed count). -/
def enc4 (n : Nat) : List Byte := enc2 (n / 65536) ++ enc2 n

/-- A signed number in two bytes, two's complement. -/
def encInt2 (n : Int) : List Byte := enc2 (BitVec.ofInt 16 n).toNat

/-- A number up to 255 that may be none: 255. -/
def encOr255 (n : Option Nat) : List Byte := enc1 (n.getD 255)

/-- A flag. -/
def encFlag (b : Bool) : List Byte := enc1 b.toNat

/-- A set of bits in the given number of bytes, members 0 to 7 in the first byte (zone set). -/
def encZones (z : ZoneSet) : List Byte := (List.range 8).map (fun i => (z >>> (8 * i)).setWidth 8)

/-- An optional field: presence, then the field. -/
def encOpt {α : Type} (enc : α → List Byte) : Option α → List Byte
  | some x => 1 :: enc x
  | none => [0]

/-- A list: count, then the items. -/
def encList {α : Type} (enc : α → List Byte) (l : List α) : List Byte := enc1 l.length ++ l.flatMap enc

/-- A recorded civil time in six bytes. -/
def encStamp (c : CivilStamp) : List Byte := enc2 c.day.toNat ++ enc3 c.second ++ encFlag c.valid

/-- The frame with its check, high byte first. -/
def withCheck (bytes : List Byte) : List Byte := bytes ++ enc2 (frameCheck bytes).toNat

/-! ### Choices from a list: their positions -/

/-- The reference states in the order of Table 11-7. -/
def RefState.place : RefState → Nat
  | .absent => 0
  | .locked => 1
  | .slewing => 2

/-- The result codes in the order of Table 0-5. -/
def ResultCode.place : ResultCode → Nat
  | .ok => 0
  | .clamped => 1
  | .notFound => 2
  | .range => 3
  | .conflict => 4
  | .full => 5
  | .inUse => 6
  | .busy => 7
  | .modeRefused => 8
  | .sourceBusy => 9
  | .panelActive => 10
  | .timeInvalid => 11
  | .malformed => 12

/-- The zone kinds in the order of Table 6-1. -/
def ZoneKind.place : ZoneKind → Nat
  | .room => 0
  | .corridor => 1
  | .outdoor => 2
  | .assembly => 3

/-- The coverages in the order of Table 7-1. -/
def Coverage.place : Coverage → Nat
  | .all => 0
  | .any => 1

/-- The end reasons in the order of Table 7-1. -/
def EndReason.place : EndReason → Nat
  | .released => 0
  | .expired => 1
  | .preempted => 2
  | .modeEnded => 3
  | .waitExpired => 4
  | .zonesLost => 5

/-- The record states in the order of Table 7-1. -/
def AnnState.place : AnnState → Nat
  | .waiting => 0
  | .active _ => 1
  | .ended .. => 2

/-- The line states of R69 in the order of their kind's list. -/
def LineState.place : LineState → Nat
  | .unset => 0
  | .synced => 1
  | .holding => 2
  | .advancing => 3
  | .following => 0
  | .stopped => 4
  | .faulted => 5

/-- A Coded line's states are Following, Stopped and Faulted (R69). -/
def linePlace (l : Line) : Nat :=
  match l.kind, l.state with
  | .coded, .stopped => 1
  | .coded, .faulted => 2
  | _, st => st.place

/-- The fault causes in the order of Table 5-1. -/
def FaultCause.place : FaultCause → Nat
  | .none => 0
  | .overcurrent => 1
  | .openCircuit => 2

/-- The polarities A and B. -/
def polarityPlace : Polarity → Nat
  | .a => 0
  | .b => 1

/-- The phases in the order of Table 9-4. -/
def Phase.place : Phase → Nat
  | .sounding => 0
  | .sweep => 1
  | .mustered => 2
  | .closing => 3

/-- The record kinds in the order of Table 9-4. -/
def EvacKind.place : EvacKind → Nat
  | .drill => 0
  | .alarm => 1

/-- The results in the order of Table 9-5. -/
def EvacResult.place : EvacResult → Nat
  | .completed => 0
  | .endedEarly => 1
  | .superseded => 2
  | .interrupted => 3

/-- The link states in the order of Table 10-1. -/
def LinkState.place : LinkState → Nat
  | .unknown => 0
  | .online => 1
  | .lost => 2

/-- The layers by their codes in Table 11-6's text. -/
def Layer.place : Layer → Nat
  | .job => 0
  | .forced => 1
  | .evacuation => 2

/-- A threshold: its level, or 5 for Never (Table 11-5). -/
def thresholdPlace : Threshold → Nat
  | .level n => n
  | .never => 5

/-! ### Records -/

/-- Table 11-7: a time snapshot in 23 bytes. -/
def encSnapshot (t : Snapshot) : List Byte :=
  enc2 t.stdDay.toNat ++ enc3 t.stdSecond ++ enc1 t.tick ++ enc2 t.civilDay.toNat ++ enc3 t.civilSecond ++ enc2 t.civilMinute ++
    encInt2 t.offset ++ encFlag t.valid ++ enc1 t.refState.place ++ [BitVec.ofInt 8 t.residual] ++ encFlag t.labelPending ++
    enc4 t.counter.toNat

/-- A key in the encoding of its table (R166); the SITE table has none. -/
def encKey : Key → List Byte
  | .plan n => enc1 n
  | .entry plan tag => enc1 plan ++ enc1 tag
  | .override division day => enc1 division ++ enc2 day.toNat
  | .shift day => enc2 day.toNat
  | .pattern n => enc1 n
  | .zone n => enc1 n
  | .building n => enc1 n
  | .line n => enc1 n
  | .program n => enc1 n
  | .division n => enc1 n
  | .site => []
  | .announcement n => enc1 n
  | .call zone => enc1 zone

/-- The start byte of a NEXT key (Table 11-3). -/
def startPlace : NextStart → Nat
  | .given => 0
  | .fromStart => 1
  | .fromPlan => 2

/-- The action of an entry with its four Bell bytes (Table 11-5); an entry that is no Bell has none of them (their bytes: DESIGN CHOICE,
log 20). -/
def encAction : Action → List Byte
  | .bell pattern duration holdable deferLimit => enc1 0 ++ enc1 pattern ++ enc1 duration ++ encFlag holdable ++ enc1 deferLimit
  | .auxOn => [1, 255, 255, 0, 255]
  | .auxOff => [2, 255, 255, 0, 255]

/-- The fields of a bell entry beside its key (Table 11-5). -/
def encEntry (e : Entry) : List Byte :=
  enc2 e.minute ++ enc1 e.second ++ enc1 e.mask.toNat ++ encZones e.zones ++ encAction e.action ++
    encOpt (fun d : Day => enc2 d.toNat) e.validFrom ++ encOpt (fun d : Day => enc2 d.toNat) e.validUntil

/-- The fields of an override: its kind, and the plan and cycle day as optional fields. -/
def encOverride : OverrideKind → List Byte
  | .plan p => enc1 0 ++ encOpt enc1 (some p) ++ encOpt enc1 none
  | .planSet p n => enc1 1 ++ encOpt enc1 (some p) ++ encOpt enc1 (some n)
  | .noSchool => enc1 2 ++ encOpt enc1 none ++ encOpt enc1 none

/-- The steps of a pattern: on-time and off-time pairs. -/
def encSteps (steps : List PatternStep) : List Byte := encList (fun x => enc1 x.on ++ enc1 x.off) steps

/-- The configuration of a zone (Table 11-5). -/
def encZoneConfig (c : ZoneConfig) : List Byte :=
  enc1 c.building ++ enc1 c.division ++ enc1 c.kind.place ++ encFlag c.callSwitch ++ enc1 c.alertPattern ++ enc1 c.alertDuration ++
    enc1 (thresholdPlace c.bellThreshold) ++ enc1 (thresholdPlace c.speakerThreshold) ++ enc1 (thresholdPlace c.auxThreshold) ++
    encFlag c.bellForced ++ encFlag c.speakerForced ++ encFlag c.auxForced ++ enc2 c.upper ++ enc2 c.lower ++ enc2 c.window

/-- A bell record in a ZONE reply: a state byte, 0 Idle, 1 Sounding or 2 Deferred, then the fields that only that state has, with no presence
byte; a Deferred deadline as its 4-byte start second and 1-byte length (R94 with 11.7 gives no layout: DESIGN CHOICE, log 20). -/
def encBellRecord : BellRecord → List Byte
  | .idle => [0]
  | .sounding pattern duration ticks tag => 1 :: (enc1 pattern ++ enc1 duration ++ enc2 ticks ++ enc1 tag)
  | .deferred pattern duration start length => 2 :: (enc1 pattern ++ enc1 duration ++ enc4 start.toNat ++ enc1 length)

/-- The bell byte, the pattern and tag byte, and the remaining eighths (Table 11-6's text); 65 535 eighths are endless. A Steady one has
pattern 0 and tag 0 (R156); an Off one has 0 in both (DESIGN CHOICE, log 9). -/
def encBell (v : BellValue) (layer : Layer) : List Byte :=
  match v with
  | .off => enc1 (64 * layer.place) ++ enc1 0 ++ enc2 0
  | .sounding pattern tag eighths => enc1 (1 + 64 * layer.place) ++ enc1 (16 * pattern + tag) ++ enc2 eighths
  | .steady => enc1 (1 + 64 * layer.place) ++ enc1 0 ++ enc2 65535

/-- The speaker byte (Table 11-6's text); the bus bits of an Off speaker are 0 (DESIGN CHOICE, log 9). -/
def encSpeaker (v : SpeakerValue) (layer : Layer) : List Byte :=
  match v with
  | .off => enc1 (64 * layer.place)
  | .bus b => enc1 (1 + 4 * b + 64 * layer.place)
  | .talkBack b => enc1 (2 + 4 * b + 64 * layer.place)

/-- The aux byte (Table 11-6's text). -/
def encAux (v : Bool) (layer : Layer) : List Byte := enc1 (v.toNat + 64 * layer.place)

/-- The delivered values of a zone with their layers, as a poll carries them after the zone number. -/
def encDelivered (d : Delivered) : List Byte :=
  encBell d.bell d.bellLayer ++ encSpeaker d.speaker d.speakerLayer ++ encAux d.aux d.auxLayer

/-- R94: the layers of a delivered value, in the order the rule lists them. -/
def Layer.listed : Layer → Nat
  | .evacuation => 0
  | .forced => 1
  | .job => 2

/-- R96: a delivered bell value in a record: Off, Sounding or Steady, then a Sounding's pattern, start tag and remaining eighths. -/
def encBellField : BellValue → List Byte
  | .off => [0]
  | .sounding pattern tag eighths => 1 :: (enc1 pattern ++ enc1 tag ++ enc2 eighths)
  | .steady => [2]

/-- R97: a delivered speaker value in a record: Off, Bus or Bus with talk-back, then the bus, 255 for none. -/
def encSpeakerField : SpeakerValue → List Byte
  | .off => [0, 255]
  | .bus b => 1 :: enc1 b
  | .talkBack b => 2 :: enc1 b

/-- R94: the delivered values in a ZONE reply: for each output its value and the layer that decided it, in the field encodings of Table 11-3,
as Table 11-5 asks (which fields a value has, and that the choices take the orders of R94, R96 and R97: DESIGN CHOICE, log 20). -/
def encDeliveredFields (d : Delivered) : List Byte :=
  encBellField d.bell ++ enc1 d.bellLayer.listed ++ encSpeakerField d.speaker ++ enc1 d.speakerLayer.listed ++
    encFlag d.aux ++ enc1 d.auxLayer.listed

/-- The live fields of a zone (Table 6-2), its voice-live flag and its delivered values (their order after Table 6-2's fields is R94's; the
claim under one presence byte: DESIGN CHOICE, log 20). -/
def encZoneLive (z : Zone) (live : Bool) (d : Delivered) : List Byte :=
  enc1 (if z.path = .good then 0 else 1) ++ enc2 z.accumulator ++ enc1 z.reports ++ encFlag z.firstWindow ++ encFlag z.alertDone ++
    encBellRecord z.bell ++ enc1 z.tagCounter ++ encFlag z.aux ++
    encOpt (fun c : Claim => enc1 c.record ++ enc1 c.bus ++ encFlag c.talkBack) z.claim ++ encFlag live ++ encDeliveredFields d

/-- The owed pulse of a line: a state byte, 0 none, 1 waiting or 2 in progress, then the slot, polarity and width of one in progress, with no
presence byte (11.7 gives no layout: DESIGN CHOICE, log 20). -/
def encOwed : OwedPulse → List Byte
  | .none => [0]
  | .waiting => [1]
  | .inProgress slot polarity width => 2 :: (enc1 slot ++ enc1 (polarityPlace polarity) ++ enc1 width)

/-- A line record: the fields of its AMEND first, then the others of Table 5-1; the position of a Coded line is an absent optional field
(R69's none: DESIGN CHOICE, log 20). That the replies to AMEND and to LINE CONTROL have the record in this order
too, which 11.7 gives to the body of AMEND and the reply to LOOKUP, is the model's (DESIGN CHOICE, log 20). -/
def encLine (l : Line) : List Byte :=
  enc1 (if l.kind = .impulse then 0 else 1) ++ enc1 l.hold ++ enc1 l.fast ++ enc1 l.width ++ enc1 (linePlace l) ++
    encOpt enc2 (if l.kind = .impulse then some l.position else none) ++ enc1 (polarityPlace l.polarity) ++ enc2 l.predicted ++
    enc1 l.fault.place ++ encOwed l.owed ++ enc1 l.sinceStart ++ encFlag l.frame.isSome

/-- The fields of a drill program that an AMEND carries (Table 9-3). -/
def encProgram (p : ProgramFields) : List Byte :=
  encZones p.zones ++ enc1 p.tone ++ enc2 p.sounding ++ enc2 p.target ++ enc2 p.deadline ++ enc1 p.muster.toNat ++ enc1 p.allClear ++
    enc1 p.allClearDuration

/-- When each building became clear: eight optional fields, in order of building (DESIGN CHOICE, log 20). -/
def encClears (c : Vector (Option ClearMark) 8) : List Byte :=
  c.toList.flatMap (encOpt (fun m : ClearMark => enc4 m.second ++ encFlag m.manual))

/-- A last result (Table 9-5). -/
def encLastResult (r : LastResult) : List Byte :=
  enc1 r.kind.place ++ encStamp r.startCivil ++ encStamp r.endCivil ++ enc1 r.result.place ++ encFlag r.overdue ++
    encFlag r.musterLate ++ encOpt enc4 r.musteredAt ++ encClears r.clears ++ enc1 r.ampFaults.toNat

/-- A drive (Table 9-4): its tone, its remaining ticks and the start tag of each driven zone, a list in order of zone number (DESIGN CHOICE,
log 20). -/
def encDrive (d : Drive) : List Byte :=
  enc1 (if d.tone = .evacuation then 0 else 1) ++ enc2 d.ticks ++ encList (fun e : Nat × Nat => enc1 e.2) d.tags

/-- An evacuation record (Table 9-4), each of its fields that are sometimes absent under a presence byte of its own, the program 255 for none
(DESIGN CHOICE, log 20). -/
def encRecord (r : EvacRecord) : List Byte :=
  enc1 r.kind.place ++ encOr255 r.program ++ enc4 r.startSecond.toNat ++ encStamp r.startCivil ++ enc1 r.phase.place ++
    encOpt encDrive r.drive ++ encClears r.clears ++ encOpt enc4 r.musteredAt ++ encFlag r.overdue ++ encFlag r.musterLate ++
    enc1 r.ampFaults.toNat ++ encOpt encFlag (if r.kind = .alarm then some r.panelCleared else none) ++
    encOpt (fun x : EvacResult => enc1 x.place) r.fixedResult

/-- A building record (Table 10-1) with the sampled LRATE and UNITS (R161): the levels and eligibilities as zone sets, the pattern in flight and
its mark under one presence byte (DESIGN CHOICE, log 20). -/
def encBuilding (b : Building) (zoneCount : Nat) (rate : LinkRate) (units : Nat) : List Byte :=
  encFlag b.present ++ enc1 b.link.place ++ enc1 b.misses ++ encFlag b.levelsKnown ++ encFlag b.clearLevel ++ encFlag b.ampFault ++
    encZones b.callLevels ++ encZones b.eligible ++ enc2 b.pending.toNat ++
    encOpt (fun f : InFlight => enc1 f.pattern ++ encFlag f.amended) b.inFlight ++ enc1 zoneCount ++
    enc1 (if rate = .kbit250 then 0 else 1) ++ enc1 units

/-- The weekday map and the cycle length of a division. -/
def encMap (map : Vector (Option Nat) 7) (cycleLength : Nat) : List Byte := map.toList.flatMap encOr255 ++ enc1 cycleLength

/-- The fields of a division beside those of its AMEND (Table 2-1, R18). The evaluation mark is an optional second-of-day, absent for "start"
(11.7 gives "start" no encoding: DESIGN CHOICE, log 20). -/
def encDivisionRest (d : Division) : List Byte :=
  encOr255 d.lastCycle ++ encOr255 d.previousCycle ++ encOpt (fun x : Day => enc2 x.toNat) d.lastCounted ++ encOr255 d.todayPlan ++
    encFlag d.schoolDay ++ encOr255 d.todayCycle ++ enc2 d.missed ++ enc2 d.suppressed ++
    encOpt enc3 (match d.mark with
      | .start => none
      | .at n => some n)

/-- The bus and the end reason of an announcement's state. -/
def stateBus : AnnState → Option Nat
  | .active b => some b
  | _ => none

/-- The end of an Ended record: reason, elapsed second and civil time. -/
def stateEnd : AnnState → Option (EndReason × Counter × CivilStamp)
  | .ended r c t => some (r, c, t)
  | _ => none

/-- An announcement record (Table 7-1) and what LOOKUP adds (R122). A maximum duration of 0 is unlimited; the bus, the arrival order number and
the answering-call zone are 255 for none; the end reason, end second and end civil time stand under one presence byte; and the fields
that LOOKUP adds for a Waiting or an Active record follow with no presence byte (DESIGN CHOICE, log 20). -/
def encAnnouncement (a : Announcement) (order : Option Nat) (view : AnnView) : List Byte :=
  enc1 a.source ++ enc1 a.priority.rank ++ enc1 a.coverage.place ++ encZones a.requested ++ encZones a.held ++ enc1 a.state.place ++
    encOr255 (stateBus a.state) ++ encOr255 order ++ enc4 a.arrivalSecond.toNat ++
    encOpt (fun c : Counter => enc4 c.toNat) a.startSecond ++ enc2 (a.maxDuration.getD 0) ++ enc1 a.waitLimit ++ encFlag a.talkBack ++
    encOr255 a.answering ++
    encOpt (fun e : EndReason × Counter × CivilStamp => enc1 e.1.place ++ enc4 e.2.1.toNat ++ encStamp e.2.2) (stateEnd a.state) ++
    (match view with
      | .waiting place remaining => enc1 place ++ enc1 remaining
      | .active elapsed remaining voice => enc4 elapsed ++ encOpt enc2 remaining ++ encZones voice
      | .ended => [])

/-- The fields of a record in a reply. 11.7 gives no layout for the fields that a record or a LOOKUP has only at times: the evacuation record and
its elapsed seconds in a PROGRAM reply stand under one presence byte, as do the answering record's number and state in a CALL reply and
the target and distance in a LINE reply; today's weekday is 255 for none (DESIGN CHOICE, log 20). -/
def encView : RecordView → List Byte
  | .plan p today =>
    enc1 p.division ++ p.tag.toList ++ encFlag p.schoolDay ++ enc1 p.lateLimit ++ enc1 p.entryCount ++
      (match today with
        | some b => encFlag b
        | none => [])
  | .entry e due => encEntry e ++ enc3 due
  | .override k => encOverride k
  | .shift minute shift => enc2 minute ++ encInt2 shift
  | .pattern p cycleLength => encSteps p.steps ++ (match cycleLength with
    | some n => enc2 n
    | none => []) ++ enc2 p.refs
  | .zone config live => encZoneConfig config ++ (match live with
    | some (z, voice, d) => encZoneLive z voice d
    | none => [])
  | .building b zoneCount rate units => encBuilding b zoneCount rate units
  | .lineAmended l => encLine l
  | .line l distance => encLine l ++ encOpt (fun x : Nat × Nat => enc2 x.1 ++ enc2 x.2) distance
  | .programAmended p => encProgram p.fields ++ encOpt encLastResult p.lastResult
  | .program p record => encProgram p.fields ++ encOpt encLastResult p.lastResult ++
    encOpt (fun x : EvacRecord × Nat => encRecord x.1 ++ enc4 x.2) record
  | .divisionAmended d => encMap d.map d.cycleLength ++ encDivisionRest d
  | .division d weekday => encMap d.map d.cycleLength ++ encDivisionRest d ++ encOr255 weekday
  | .site s => enc1 s.epochWeekday ++ encFlag s.keyEnable ++ enc1 s.clearWindows ++ enc1 s.alarmProgram
  | .announcement a order view => encAnnouncement a order view
  | .call c place answering =>
    encStamp c.firstPress ++ enc1 c.repeats ++ encFlag c.duringEvacuation ++ enc1 place ++
      encOpt (fun x : Nat × AnnState => enc1 x.1 ++ enc1 x.2.place) answering

/-- A bus table entry (R106): the announcement and the source, 255 for none (DESIGN CHOICE, log 20). -/
def encBus (e : Option BusEntry) : List Byte := encOr255 (e.map (·.record)) ++ encOr255 (e.map (·.source))

/-- READ STATUS (R168), its fields in the order of the rule; the evacuation record's kind and phase under one presence byte, and the line
counts Unset, Synced, Holding, Advancing, Following, Stopped and Faulted, the last two of both kinds together (DESIGN CHOICE, log 20). -/
def encStatus (v : StatusView) : List Byte :=
  encSnapshot v.time ++ enc1 v.base.level ++ enc1 v.effective.level ++ enc1 (if v.panel = .normal then 0 else 1) ++
    encOpt (fun x : EvacKind × Phase => enc1 x.1.place ++ enc1 x.2.place) v.evacuation ++
    enc1 v.plans ++ enc2 v.entries ++ enc1 v.overrides ++ enc1 v.shifts ++ enc1 v.patterns ++ enc1 v.zones ++ enc1 v.programs ++
    enc1 v.waiting ++ enc1 v.active ++ enc1 v.ended ++ v.buses.toList.flatMap encBus ++ enc1 v.calls ++ encFlag v.overflow ++
    enc1 v.unknown ++ enc1 v.online ++ enc1 v.lost ++
    enc1 v.lines.unset ++ enc1 v.lines.synced ++ enc1 v.lines.holding ++ enc1 v.lines.advancing ++ enc1 v.lines.following ++
    enc1 v.lines.stopped ++ enc1 v.lines.faulted ++ enc2 v.status.toNat ++ enc2 v.enable.toNat

/-- The key or body of a reply. 11.7 does not say how the fields of a reply that are there at times are grouped: the bus and held set of an
Active record stand under one presence byte in the replies to ANNOUNCE and ANSWER CALL, the end reason of an Ended one under another; so
does the end reason in the reply to RELEASE; and the evacuation record in the replies of chapter 9 stands under a presence byte, absent
when ALL CLEAR has closed it at once (DESIGN CHOICE, log 20). -/
def encBody : ReplyBody → List Byte
  | .empty => []
  | .key k => encKey k
  | .nextKey start k => enc1 (startPlace start) ++ encKey k
  | .received key => key
  | .record k r => encKey k ++ encView r
  | .snapshot t => encSnapshot t
  | .modes base effective => enc1 base.level ++ enc1 effective.level
  | .announced record state held =>
    enc1 record ++ enc1 state.place ++ encOpt (fun b => enc1 b ++ encZones held) (stateBus state) ++
      encOpt (fun e : EndReason × Counter × CivilStamp => enc1 e.1.place) (stateEnd state)
  | .released state =>
    enc1 state.place ++ encOpt (fun e : EndReason × Counter × CivilStamp => enc1 e.1.place) (stateEnd state)
  | .lineRecord l => encLine l
  | .evacuation r => encOpt encRecord r
  | .status v => encStatus v
  | .attention status enable => enc2 status.toNat ++ enc2 enable.toNat

/-- Table 11-4: a reply from its first byte: the length, the request code, the result code, the flags, the key or body, and the check. -/
def replyBytes (r : Reply) : List Byte :=
  withCheck (enc1 (3 + (encBody r.body).length) ++ enc1 r.code ++ enc1 r.result.place ++ encFlag r.lost ++ encBody r.body)

/-! ### Polls and probes (Table 11-6) -/

/-- A poll or probe as it is sent. -/
def linkFrameBytes (f : LinkFrame) : List Byte :=
  withCheck (enc1 f.address ++ enc2 f.day.toNat ++ enc3 f.second ++ enc1 (f.valid.toNat + 16 * f.mode.level) ++
    encList (fun e : Nat × Delivered => enc1 e.1 ++ encDelivered e.2) f.zones ++
    encOpt (fun d : Nat × List PatternStep => enc1 d.1 ++ encSteps d.2) f.pattern)

end Sys2Proof.Machine
end

