-- ==== Sys2Proof/Machine/CommandPort.lean ====
section
/-! DEFINITION. Command Port and Attention (chapter 11): READ STATUS, ATTENTION, a malformed request, a discarded request frame, and a
read frame. -/

namespace Sys2Proof.Machine

/-! ### READ STATUS (R168) -/

/-- The number of announcement records in a state. -/
def countRecords (s : State) (f : Announcement → Bool) : Nat := (s.arb.slots.filter (fun e => f e.2)).length

/-- R161 and R168: the number of present buildings in a link state. -/
def countLinks (s : State) (l : LinkState) : Nat := (s.link.buildings.toList.filter (fun b => b.present && b.link == l)).length

/-- The number of clock lines in a state. -/
def countLines (s : State) (st : LineState) : Nat := (s.lines.toList.filter (fun l => l.state == st)).length

/-- R168: the number of clock lines in each state. -/
def lineCounts (s : State) : LineCounts :=
  { unset := countLines s .unset, synced := countLines s .synced, holding := countLines s .holding,
    advancing := countLines s .advancing, following := countLines s .following, stopped := countLines s .stopped,
    faulted := countLines s .faulted }

/-- R168: what READ STATUS returns. -/
def statusView (s : State) : StatusView :=
  { time := s.time.snapshot, base := s.modes.base, effective := s.modes.effective, panel := s.modes.panel,
    evacuation := s.modes.record.map (fun r => (r.kind, r.phase)), plans := s.store.plans.length,
    entries := s.store.entries.length, overrides := s.cal.overrides.length, shifts := s.time.shifts.length,
    patterns := s.store.patterns.length, zones := s.zones.length, programs := s.modes.programs.length,
    waiting := countRecords s Announcement.isWaiting, active := countRecords s Announcement.isActive,
    ended := countRecords s (fun a => !a.live), buses := s.arb.buses, calls := s.calls.calls.length, overflow := s.calls.overflow,
    unknown := countLinks s .unknown, online := countLinks s .online, lost := countLinks s .lost, lines := lineCounts s,
    status := s.attn.status, enable := s.attn.enable }

/-- READ_STATUS (R168). -/
def execReadStatus (s : State) : Result := takeRequest s 28 (fun s => { state := s, result := .ok, body := .status (statusView s) })

/-! ### ATTENTION (R170) -/

/-- R170: the members of the clear set are cleared, and the enables take the enable set when one is given. -/
def Attention.serve (a : Attention) (clear : ClassSet) (enable : Option ClassSet) : Attention :=
  { status := a.status &&& ~~~clear, enable := enable.getD a.enable }

/-- R170: the reply carries the status set as it stood and the enable set as it stands after the request. -/
def attentionAnswer (clear : ClassSet) (enable : Option ClassSet) (s : State) : Answer :=
  let attn := s.attn.serve clear enable
  { state := { s with attn := attn }, result := .ok, body := .attention s.attn.status attn.enable }

/-- ATTENTION (R170). -/
def execAttention (clear : ClassSet) (enable : Option ClassSet) (s : State) : Result :=
  takeRequest s 29 (attentionAnswer clear enable)

/-! ### Frames (R163 to R165) -/

/-- MALFORMED_REQUEST (R165, R166): the request reaches no owning block, changes nothing, and is answered MALFORMED with its code and the
key as received. -/
def execMalformedRequest (received : MalformedFrame) (s : State) : Result :=
  takeRequest s received.code (fun s => refuse s .malformed (.received received.key))

/-- R163: a new request frame finds the request buffer occupied: it is discarded whole and the request-lost flag is set. The frame that
occupies the buffer stands untaken and its reply is not ready (log 8). Every byte driven during the frame was 0. -/
def Port.frameDiscarded : Port := { requestHeld := true, requestLost := true, reply := .notReady, output := [] }

/-- REQUEST_FRAME_DISCARDED (R163). -/
def execRequestFrameDiscarded (s : State) : Result := takeEvent s (fun s => { s with port := .frameDiscarded })

/-- R164: what stands in the reply buffer as a read frame returns it: the marker, and a reply's bytes after it. -/
def ReplyBuffer.bytes : ReplyBuffer → List Byte
  | .empty => [0]
  | .notReady => [1]
  | .held r => 2 :: replyBytes r

/-- R164: the bytes clocked beyond the end of a reply read 0. -/
def padTo (n : Nat) (l : List Byte) : List Byte := l.take n ++ List.replicate (n - l.length) 0

/-- R164: a reply is read once its last byte has been clocked out within one frame. -/
def ReplyBuffer.afterRead (b : ReplyBuffer) (clocked : Nat) : ReplyBuffer :=
  match b with
  | .held r => if 1 + (replyBytes r).length ≤ clocked then .empty else .held r
  | x => x

/-- READ_FRAME (R164). While RESET is asserted the port drives nothing (R171). -/
def execReadFrame (clocked : Nat) (s : State) : Result :=
  if s.resetHeld then .next { s with port := { s.port with output := [] } }
  else .next { s with port := { s.port with
      output := padTo clocked s.port.reply.bytes
      reply := s.port.reply.afterRead clocked } }

end Sys2Proof.Machine
end

