-- ==== Sys2Proof/WellFormed.lean ====
section
/-! DEFINITION. Well-formed commands: every operand within the encoding of its field (Table 11-3), so that a frame can carry it. A
well-formed command may still be refused or clamped by its owning block (3.7). -/

namespace Sys2Proof

/-- A number of one byte. -/
def fits1 (n : Nat) : Bool := decide (n < 256)

/-- A number of two bytes. -/
def fits2 (n : Nat) : Bool := decide (n < 65536)

/-- A second-of-day of three bytes. -/
def fits3 (n : Nat) : Bool := decide (n < 16777216)

/-- A signed number of two bytes. -/
def fitsInt2 (n : Int) : Bool := decide (-32768 ≤ n) && decide (n < 32768)

/-- A number of one byte that may be none, none being carried as 255. -/
def fitsOr255 (n : Option Nat) : Bool := match n with
  | some x => decide (x < 255)
  | none => true

/-- A threshold code: 0 to 4, or Never (Table 11-5; level 0 is clamped by R92). -/
def fitsThreshold : Threshold → Bool
  | .level n => decide (n ≤ 4)
  | .never => true

/-- The start byte 2, from the start of the plan, belongs to the ENTRY table alone (Table 11-3). -/
def plainStart (n : NextStart) : Bool := n != .fromPlan

/-- The fields of an override that a frame can carry. Kinds 0 to 2 are the three of R22. -/
def fitsOverride : OverrideFields → Bool
  | .plan p => fits1 p
  | .planSet p n => fits1 p && fits1 n
  | .noSchool => true
  | .other code => decide (3 ≤ code) && fits1 code

/-- The fields of an entry (Table 11-5). -/
def fitsEntry (f : EntryFields) : Bool :=
  fits2 f.minute && fits1 f.second && fits1 f.action && fits1 f.pattern && fits1 f.duration && fits1 f.deferLimit

/-- The fields of a zone (Table 11-5): U, L and W are 0 to 255, or default. -/
def fitsZone (f : ZoneFields) : Bool :=
  fits1 f.building && fits1 f.division && fits1 f.kind && fits1 f.alertPattern && fits1 f.alertDuration &&
    fitsThreshold f.bellThreshold && fitsThreshold f.speakerThreshold && fitsThreshold f.auxThreshold &&
    (f.upper.all fits1) && (f.lower.all fits1) && (f.window.all fits1)

/-- The fields of a drill program (Table 9-3). -/
def fitsProgram (f : ProgramFields) : Bool :=
  fits1 f.tone && fits2 f.sounding && fits2 f.target && fits2 f.deadline && fits1 f.allClear && fits1 f.allClearDuration

/-- The fields of ANNOUNCE (R109). -/
def fitsAnnounce (f : AnnounceFields) : Bool :=
  fits1 f.source && fits1 f.priority && fits1 f.coverage && fits2 f.maxDuration && fits1 f.waitLimit

/-- The steps of a pattern: as many as one frame can carry, its length byte counting the codes, the key, the count and two bytes a step. -/
def fitsSteps (steps : List PatternStep) : Bool :=
  decide (steps.length ≤ 125) && steps.all (fun x => fits1 x.on && fits1 x.off)

/-- The entries of a report within their encodings (Table 11-6). -/
def fitsReport (r : Report) : Bool :=
  fits1 r.address && decide (r.zones.length ≤ 255) && r.zones.all (fun x => fits1 x.zone && fits1 x.count) && fitsOr255 r.echo

/-- A command is well formed. The place operands of an event name a line, a zone or a record that exists. -/
def Instr.wf : Instr → Bool
  | .powerOnReset _ => true
  | .systemResetAssert => true
  | .systemResetRelease _ => true
  | .tick _ _ => true
  | .secondBoundary => true
  | .refPulse => true
  | .referenceLoss => true
  | .setTime _ second offset => fits3 second && offset.all fitsInt2
  | .timeReference _ second => fits3 second
  | .setBaseMode mode => fits1 mode
  | .announce f => fitsAnnounce f
  | .release record => fits1 record
  | .answerCall zone => fits1 zone
  | .clearCall zone => fits1 zone
  | .startDrill program => fits1 program
  | .silence => true
  | .allClear => true
  | .markBuilding building => fits1 building
  | .lineControlRun line => fits1 line
  | .lineControlStop line => fits1 line
  | .lineControlSetPosition line position _ => fits1 line && fits2 position
  | .readStatus => true
  | .attention _ _ => true
  | .malformedRequest received => fits1 received.code && decide (received.key.length ≤ 4)
  | .requestFrameDiscarded => true
  | .readFrame _ => true
  | .lookupPlan plan => fits1 plan
  | .amendPlan plan f => fits1 plan && fits1 f.division && fits1 f.lateLimit
  | .retirePlan plan => fits1 plan
  | .nextPlan start plan => plainStart start && fits1 plan
  | .lookupEntry plan tag => fits1 plan && fits1 tag
  | .amendEntry plan tag f => fits1 plan && fits1 tag && fitsEntry f
  | .retireEntry plan tag => fits1 plan && fits1 tag
  | .nextEntry _ plan tag => fits1 plan && fits1 tag
  | .lookupOverride division _ => fits1 division
  | .amendOverride division _ f => fits1 division && fitsOverride f
  | .retireOverride division _ => fits1 division
  | .nextOverride start division _ => plainStart start && fits1 division
  | .lookupShift _ => true
  | .amendShift _ f => fits2 f.minute && fitsInt2 f.shift
  | .retireShift _ => true
  | .nextShift start _ => plainStart start
  | .lookupPattern pattern => fits1 pattern
  | .amendPattern pattern steps => fits1 pattern && fitsSteps steps
  | .retirePattern pattern => fits1 pattern
  | .nextPattern start pattern => plainStart start && fits1 pattern
  | .lookupZone zone => fits1 zone
  | .amendZone zone f => fits1 zone && fitsZone f
  | .retireZone zone => fits1 zone
  | .nextZone start zone => plainStart start && fits1 zone
  | .lookupBuilding building => fits1 building
  | .nextBuilding start building => plainStart start && fits1 building
  | .amendLine line f => fits1 line && fits1 f.kind && fits1 f.hold && fits1 f.fast && fits1 f.width
  | .lookupLine line => fits1 line
  | .nextLine start line => plainStart start && fits1 line
  | .amendProgram program f => fits1 program && fitsProgram f
  | .retireProgram program => fits1 program
  | .lookupProgram program => fits1 program
  | .nextProgram start program => plainStart start && fits1 program
  | .amendDivision division f => fits1 division && f.map.toList.all fitsOr255 && fits1 f.cycleLength
  | .lookupDivision division => fits1 division
  | .nextDivision start division => plainStart start && fits1 division
  | .amendSite f => fits1 f.epochWeekday && fits1 f.clearWindows && fits1 f.alarmProgram
  | .lookupSite => true
  | .lookupAnnouncement record => fits1 record
  | .retireAnnouncement record => fits1 record
  | .nextAnnouncement start record => plainStart start && fits1 record
  | .lookupCall zone => fits1 zone
  | .retireCall zone => fits1 zone
  | .nextCall start zone => plainStart start && fits1 zone
  | .maximumDurationExpiry => true
  | .waitDeadlineExpiry record => decide (record < 16)
  | .automaticRetirement record => decide (record < 16)
  | .deferralDeadlineExpiry zone => decide (zone < 64)
  | .soundingEnd zone => decide (zone < 64)
  | .evacuationToneEnd => true
  | .allClearToneEnd => true
  | .evacuationTargetExpiry => true
  | .musterDeadlineExpiry => true
  | .pulseStart => true
  | .pulseCompletion line => decide (line < 12)
  | .fastPulseWait line => decide (line < 12)
  | .lineFault line _ _ => decide (line < 12)
  | .codedFrameEnd line => decide (line < 12)
  | .panelWindowEnd => true
  | .keyShortPress => true
  | .keyLongPress => true
  | .poll => true
  | .probe => true
  | .goodReport report => fitsReport report
  | .responseMiss => true

end Sys2Proof
end

