-- ==== Sys2Proof/Decode.lean ====
section
/-! DEFINITION. Decoding (11.2, 11.7): the request frames of the command port, the kind byte of a frame, and the report frames of the
building link, each with its encoder. No row of spec/opcode_table.json gives bits, so no table word spells a command. -/

namespace Sys2Proof

open Machine

/-- The command that a word spells by the table's bits: no row of the table gives any. -/
def decodeTableWord (_nbits _w : Nat) : Option Instr := none

/-! ### Reading fields (Table 11-3) -/

/-- A reader of fields from the bytes of a frame; none where the bytes do not hold them. -/
abbrev Reader := StateT (List Byte) Option

/-- One byte. -/
def readByte : Reader Byte := fun l => match l with
  | b :: rest => some (b, rest)
  | [] => none

/-- A number in one byte. -/
def read1 : Reader Nat := do
  let b ← readByte
  return b.toNat

/-- A number in two bytes, high byte first. -/
def read2 : Reader Nat := do
  let h ← read1
  let l ← read1
  return h * 256 + l

/-- A number in three bytes, high byte first. -/
def read3 : Reader Nat := do
  let h ← read1
  let l ← read2
  return h * 65536 + l

/-- A day. -/
def readDay : Reader Day := do
  let n ← read2
  return BitVec.ofNat 16 n

/-- A signed number in two bytes. -/
def readInt2 : Reader Int := do
  let n ← read2
  return (BitVec.ofNat 16 n).toInt

/-- A choice from a list of encodings: nothing is read outside it (R165). -/
def readChoice {α : Type} (choices : List α) : Reader α := do
  let n ← read1
  match choices[n]? with
  | some x => return x
  | none => failure

/-- A flag: 0 or 1. -/
def readFlag : Reader Bool := readChoice [false, true]

/-- A number that may be none: 255. -/
def readOr255 : Reader (Option Nat) := do
  let n ← read1
  return if n = 255 then none else some n

/-- An optional field: presence, then the field. -/
def readOpt {α : Type} (field : Reader α) : Reader (Option α) := do
  let present ← readFlag
  if present then do
    let x ← field
    return some x
  else return none

/-- A fixed number of fields. -/
def readMany {α : Type} (field : Reader α) : Nat → Reader (List α)
  | 0 => return []
  | n + 1 => do
    let x ← field
    let rest ← readMany field n
    return x :: rest

/-- A list: count, then the items. -/
def readList {α : Type} (item : Reader α) : Reader (List α) := do
  let n ← read1
  readMany item n

/-- A fixed number of fields in a row of that length. -/
def readVector {α : Type} (field : Reader α) : (n : Nat) → Reader (Vector α n)
  | 0 => return #v[]
  | n + 1 => do
    let v ← readVector field n
    let x ← field
    return v.push x

/-- A zone set: zone n in byte n ÷ 8, bit n mod 8. -/
def readZones : Reader ZoneSet := do
  let a ← readByte
  let b ← readByte
  let c ← readByte
  let d ← readByte
  let e ← readByte
  let f ← readByte
  let g ← readByte
  let h ← readByte
  return h ++ g ++ f ++ e ++ d ++ c ++ b ++ a

/-- A set of the attention classes: bits 11 to 15 clear (R170). -/
def readClasses : Reader ClassSet := do
  let n ← read2
  if n < 2048 then return BitVec.ofNat 11 n else failure

/-- A threshold: 0 to 4, or 5 for Never (Table 11-5). A value from 6 to 255 is none of these and makes the request MALFORMED (DESIGN CHOICE,
log 22). -/
def readThreshold : Reader Threshold := readChoice [.level 0, .level 1, .level 2, .level 3, .level 4, .never]

/-- U, L or W: 0 to 255, or 256 for default (Table 11-5). A value above 256 is none of these and makes the request MALFORMED (DESIGN CHOICE,
log 22). -/
def readLimit : Reader (Option Nat) := do
  let n ← read2
  if n = 256 then return none
  else if n < 256 then return some n
  else failure

/-- A polarity. -/
def readPolarity : Reader Polarity := readChoice [.a, .b]

/-- The start byte of a NEXT key, of a table that is not the ENTRY table. -/
def readStart : Reader NextStart := readChoice [.given, .fromStart]

/-- The start byte of a NEXT key of the ENTRY table. -/
def readEntryStart : Reader NextStart := readChoice [.given, .fromStart, .fromPlan]

/-! ### Reading the fields of an AMEND or an action -/

/-- R35. -/
def readPlanFields : Reader PlanFields := do
  let division ← read1
  let tag ← readVector readByte 8
  let schoolDay ← readFlag
  let lateLimit ← read1
  return { division, tag, schoolDay, lateLimit }

/-- R39 and Table 11-5. -/
def readEntryFields : Reader EntryFields := do
  let minute ← read2
  let second ← read1
  let mask ← readByte
  let zones ← readZones
  let action ← read1
  let pattern ← read1
  let duration ← read1
  let holdable ← readFlag
  let deferLimit ← read1
  let validFrom ← readOpt readDay
  let validUntil ← readOpt readDay
  return { minute, second, mask, zones, action, pattern, duration, holdable, deferLimit, validFrom, validUntil }

/-- R22: the kind, and the plan and cycle day as optional fields. One of the three kinds carries exactly the fields that it requires, and a body
with one missing or one more is MALFORMED (R165); a kind that is not one of the three requires none and reaches its owner with any of them,
which refuses it with RANGE (R22 step 2). That it does so is the model's choice (DESIGN CHOICE, log 9). -/
def readOverrideFields : Reader OverrideFields := do
  let kind ← read1
  let p ← readOpt read1
  let n ← readOpt read1
  match kind, p, n with
  | 0, some p, none => return .plan p
  | 1, some p, some n => return .planSet p n
  | 2, none, none => return .noSchool
  | k + 3, _, _ => return .other (k + 3)
  | _, _, _ => failure

/-- R14. -/
def readShiftFields : Reader ShiftFields := do
  let minute ← read2
  let shift ← readInt2
  return { minute, shift }

/-- R44. -/
def readStep : Reader PatternStep := do
  let on ← read1
  let off ← read1
  return { on, off }

/-- R92 and Table 11-5. -/
def readZoneFields : Reader ZoneFields := do
  let building ← read1
  let division ← read1
  let kind ← read1
  let callSwitch ← readFlag
  let alertPattern ← read1
  let alertDuration ← read1
  let bellThreshold ← readThreshold
  let speakerThreshold ← readThreshold
  let auxThreshold ← readThreshold
  let bellForced ← readFlag
  let speakerForced ← readFlag
  let auxForced ← readFlag
  let upper ← readLimit
  let lower ← readLimit
  let window ← readLimit
  return { building, division, kind, callSwitch, alertPattern, alertDuration, bellThreshold, speakerThreshold, auxThreshold,
           bellForced, speakerForced, auxForced, upper, lower, window }

/-- R85. -/
def readLineFields : Reader LineFields := do
  let kind ← read1
  let hold ← read1
  let fast ← read1
  let width ← read1
  return { kind, hold, fast, width }

/-- R141 and Table 9-3. -/
def readProgramFields : Reader ProgramFields := do
  let zones ← readZones
  let tone ← read1
  let sounding ← read2
  let target ← read2
  let deadline ← read2
  let muster ← readByte
  let allClear ← read1
  let allClearDuration ← read1
  return { zones, tone, sounding, target, deadline, muster, allClear, allClearDuration }

/-- R20. -/
def readDivisionFields : Reader DivisionFields := do
  let map ← readVector readOr255 7
  let cycleLength ← read1
  return { map, cycleLength }

/-- R19 and R136. -/
def readSiteFields : Reader SiteFields := do
  let epochWeekday ← read1
  let keyEnable ← readFlag
  let clearWindows ← read1
  let alarmProgram ← read1
  return { epochWeekday, keyEnable, clearWindows, alarmProgram }

/-- R109. -/
def readAnnounceFields : Reader AnnounceFields := do
  let source ← read1
  let priority ← read1
  let coverage ← read1
  let zones ← readZones
  let maxDuration ← read2
  let waitLimit ← read1
  let talkBack ← readFlag
  return { source, priority, coverage, zones, maxDuration, waitLimit, talkBack }

/-- 5.7: LINE CONTROL: a line and one of three commands; SET POSITION carries the position and may carry a polarity. -/
def readLineControl : Reader Instr := do
  let line ← read1
  let command ← read1
  let position ← readOpt read2
  let polarity ← readOpt readPolarity
  match command, position, polarity with
  | 0, none, none => return .lineControlRun line
  | 1, none, none => return .lineControlStop line
  | 2, some p, q => return .lineControlSetPosition line p q
  | _, _, _ => failure

/-! ### Request frames (Tables 11-1, 11-2 and 11-4) -/

/-- LOOKUP by table code. -/
def readLookup : Nat → Reader Instr
  | 1 => do return .lookupPlan (← read1)
  | 2 => do return .lookupEntry (← read1) (← read1)
  | 3 => do return .lookupOverride (← read1) (← readDay)
  | 4 => do return .lookupShift (← readDay)
  | 5 => do return .lookupPattern (← read1)
  | 6 => do return .lookupZone (← read1)
  | 7 => do return .lookupBuilding (← read1)
  | 8 => do return .lookupLine (← read1)
  | 9 => do return .lookupProgram (← read1)
  | 10 => do return .lookupDivision (← read1)
  | 11 => return .lookupSite
  | 12 => do return .lookupAnnouncement (← read1)
  | 13 => do return .lookupCall (← read1)
  | _ => failure

/-- AMEND by table code; BUILDING, ANNOUNCEMENT and CALL take none (Table 11-1). -/
def readAmend : Nat → Reader Instr
  | 1 => do return .amendPlan (← read1) (← readPlanFields)
  | 2 => do return .amendEntry (← read1) (← read1) (← readEntryFields)
  | 3 => do return .amendOverride (← read1) (← readDay) (← readOverrideFields)
  | 4 => do return .amendShift (← readDay) (← readShiftFields)
  | 5 => do return .amendPattern (← read1) (← readList readStep)
  | 6 => do return .amendZone (← read1) (← readZoneFields)
  | 8 => do return .amendLine (← read1) (← readLineFields)
  | 9 => do return .amendProgram (← read1) (← readProgramFields)
  | 10 => do return .amendDivision (← read1) (← readDivisionFields)
  | 11 => do return .amendSite (← readSiteFields)
  | _ => failure

/-- RETIRE by table code; BUILDING, LINE, DIVISION and SITE take none (Table 11-1). -/
def readRetire : Nat → Reader Instr
  | 1 => do return .retirePlan (← read1)
  | 2 => do return .retireEntry (← read1) (← read1)
  | 3 => do return .retireOverride (← read1) (← readDay)
  | 4 => do return .retireShift (← readDay)
  | 5 => do return .retirePattern (← read1)
  | 6 => do return .retireZone (← read1)
  | 9 => do return .retireProgram (← read1)
  | 12 => do return .retireAnnouncement (← read1)
  | 13 => do return .retireCall (← read1)
  | _ => failure

/-- NEXT by table code; SITE takes none (Table 11-1). -/
def readNext : Nat → Reader Instr
  | 1 => do return .nextPlan (← readStart) (← read1)
  | 2 => do return .nextEntry (← readEntryStart) (← read1) (← read1)
  | 3 => do return .nextOverride (← readStart) (← read1) (← readDay)
  | 4 => do return .nextShift (← readStart) (← readDay)
  | 5 => do return .nextPattern (← readStart) (← read1)
  | 6 => do return .nextZone (← readStart) (← read1)
  | 7 => do return .nextBuilding (← readStart) (← read1)
  | 8 => do return .nextLine (← readStart) (← read1)
  | 9 => do return .nextProgram (← readStart) (← read1)
  | 10 => do return .nextDivision (← readStart) (← read1)
  | 12 => do return .nextAnnouncement (← readStart) (← read1)
  | 13 => do return .nextCall (← readStart) (← read1)
  | _ => failure

/-- An action by its request code (Table 11-2). -/
def readAction : Nat → Reader Instr
  | 16 => do return .setTime (← readDay) (← read3) (← readOpt readInt2)
  | 17 => do return .timeReference (← readDay) (← read3)
  | 18 => do return .setBaseMode (← read1)
  | 19 => do return .announce (← readAnnounceFields)
  | 20 => do return .release (← read1)
  | 21 => do return .answerCall (← read1)
  | 22 => do return .clearCall (← read1)
  | 23 => do return .startDrill (← read1)
  | 24 => return .silence
  | 25 => return .allClear
  | 26 => do return .markBuilding (← read1)
  | 27 => readLineControl
  | 28 => return .readStatus
  | 29 => do return .attention (← readClasses) (← readOpt readClasses)
  | _ => failure

/-- A request by its request code and table code; an action carries table code 0. -/
def readRequest (code table : Nat) : Reader Instr :=
  match code with
  | 1 => readLookup table
  | 2 => readAmend table
  | 3 => readRetire table
  | 4 => readNext table
  | _ => if table = 0 then readAction code else failure

/-- The key and body of a request, read whole: neither shorter nor longer than the request requires (R165). -/
def decodeBody (code table : Nat) (body : List Byte) : Option Instr :=
  match readRequest code table body with
  | some (i, []) => some i
  | _ => none

/-- R172: the bytes of a frame without its check, where the check holds. -/
def checkedFrame (bytes : List Byte) : Option (List Byte) :=
  let content := bytes.take (bytes.length - 2)
  if 2 ≤ bytes.length ∧ withCheck content = bytes then some content else none

/-- R165: the request that a request frame carries, from its kind byte to its check; none where it is MALFORMED. -/
def decodeRequest (bytes : List Byte) : Option Instr :=
  match checkedFrame bytes with
  | some (kind :: length :: code :: table :: body) =>
    if kind = 1 ∧ length.toNat = 2 + body.length then decodeBody code.toNat table.toNat body else none
  | _ => none

/-- R165: the request code as received, or 0 when the frame was too short to hold one. A frame holds one when it has a byte 2, be that byte, in a
frame of 3 or 4 bytes, one of its check (DESIGN CHOICE, log 22). -/
def codeReceived (bytes : List Byte) : Nat := (bytes[2]?.getD 0).toNat

/-- R166: the bytes of a key in the encoding of its table. -/
def keyLength (table : Nat) : Option Nat :=
  match table with
  | 2 => some 2
  | 3 => some 3
  | 4 => some 2
  | 11 => some 0
  | n => if 1 ≤ n ∧ n ≤ 13 then some 1 else none

/-- R166: the bytes of a record request's key as received, a NEXT's with its start byte; none where the body does not hold a whole key of one
of the thirteen tables. -/
def keyOfBody (code table : Nat) (body : List Byte) : List Byte :=
  match keyLength table with
  | some n =>
    let length := if code = codeNext then n + 1 else n
    if codeLookup ≤ code ∧ code ≤ codeNext ∧ length ≤ body.length then body.take length else []
  | none => []

/-- R165 and R166: the key that the reply to a MALFORMED frame carries: that of a record request whose length and check agree with its frame
(the frames without one: DESIGN CHOICE, log 9). -/
def keyReceived (bytes : List Byte) : List Byte :=
  match checkedFrame bytes with
  | some (kind :: length :: code :: table :: body) =>
    if kind = 1 ∧ length.toNat = 2 + body.length then keyOfBody code.toNat table.toNat body else []
  | _ => []

/-- R163 to R165: the command that one chip-select frame is: `whole` says that chip select was deasserted between bytes, `occupied` that the
request buffer held a frame not yet taken. A frame of another kind is ignored, and so is one that ends within its first byte (DESIGN CHOICE,
log 22). -/
def portCommand (occupied whole : Bool) (bytes : List Byte) : Option Instr :=
  match bytes with
  | 1 :: _ =>
    if occupied then some .requestFrameDiscarded
    else some ((if whole then decodeRequest bytes else none).getD
      (.malformedRequest { code := codeReceived bytes, key := if whole then keyReceived bytes else [] }))
  | 2 :: rest => some (.readFrame rest.length)
  | _ => none

/-! ### Writing request frames -/

/-- The fields of a plan that an AMEND carries. -/
def encPlanFields (f : PlanFields) : List Byte := enc1 f.division ++ f.tag.toList ++ encFlag f.schoolDay ++ enc1 f.lateLimit

/-- The fields of an entry that an AMEND carries. -/
def encEntryFields (f : EntryFields) : List Byte :=
  enc2 f.minute ++ enc1 f.second ++ [f.mask] ++ encZones f.zones ++ enc1 f.action ++ enc1 f.pattern ++ enc1 f.duration ++
    encFlag f.holdable ++ enc1 f.deferLimit ++ encOpt (fun d : Day => enc2 d.toNat) f.validFrom ++
    encOpt (fun d : Day => enc2 d.toNat) f.validUntil

/-- The fields of an override that an AMEND carries. -/
def encOverrideFields : OverrideFields → List Byte
  | .plan p => enc1 0 ++ encOpt enc1 (some p) ++ encOpt enc1 none
  | .planSet p n => enc1 1 ++ encOpt enc1 (some p) ++ encOpt enc1 (some n)
  | .noSchool => enc1 2 ++ encOpt enc1 none ++ encOpt enc1 none
  | .other code => enc1 code ++ encOpt enc1 none ++ encOpt enc1 none

/-- U, L or W. -/
def encLimit (n : Option Nat) : List Byte := enc2 (n.getD 256)

/-- The fields of a zone that an AMEND carries. -/
def encZoneFields (f : ZoneFields) : List Byte :=
  enc1 f.building ++ enc1 f.division ++ enc1 f.kind ++ encFlag f.callSwitch ++ enc1 f.alertPattern ++ enc1 f.alertDuration ++
    enc1 (thresholdPlace f.bellThreshold) ++ enc1 (thresholdPlace f.speakerThreshold) ++ enc1 (thresholdPlace f.auxThreshold) ++
    encFlag f.bellForced ++ encFlag f.speakerForced ++ encFlag f.auxForced ++ encLimit f.upper ++ encLimit f.lower ++
    encLimit f.window

/-- The fields of ANNOUNCE. -/
def encAnnounceFields (f : AnnounceFields) : List Byte :=
  enc1 f.source ++ enc1 f.priority ++ enc1 f.coverage ++ encZones f.zones ++ enc2 f.maxDuration ++ enc1 f.waitLimit ++
    encFlag f.talkBack

/-- A NEXT key. -/
def encNext (start : NextStart) (key : List Byte) : List Byte := enc1 (startPlace start) ++ key

/-- LINE CONTROL: the line, the command, and SET POSITION's two fields. -/
def encLineControl (line command : Nat) (position : Option Nat) (polarity : Option Polarity) : List Byte :=
  enc1 line ++ enc1 command ++ encOpt enc2 position ++ encOpt (fun q => enc1 (polarityPlace q)) polarity

/-- The request code, the table code, and the key and body of a request; none for a command that is no request. -/
def requestParts : Instr → Option (Nat × Nat × List Byte)
  | .setTime day second offset => some (16, 0, enc2 day.toNat ++ enc3 second ++ encOpt encInt2 offset)
  | .timeReference day second => some (17, 0, enc2 day.toNat ++ enc3 second)
  | .setBaseMode mode => some (18, 0, enc1 mode)
  | .announce f => some (19, 0, encAnnounceFields f)
  | .release record => some (20, 0, enc1 record)
  | .answerCall zone => some (21, 0, enc1 zone)
  | .clearCall zone => some (22, 0, enc1 zone)
  | .startDrill program => some (23, 0, enc1 program)
  | .silence => some (24, 0, [])
  | .allClear => some (25, 0, [])
  | .markBuilding building => some (26, 0, enc1 building)
  | .lineControlRun line => some (27, 0, encLineControl line 0 none none)
  | .lineControlStop line => some (27, 0, encLineControl line 1 none none)
  | .lineControlSetPosition line position polarity => some (27, 0, encLineControl line 2 (some position) polarity)
  | .readStatus => some (28, 0, [])
  | .attention clear enable => some (29, 0, enc2 clear.toNat ++ encOpt (fun e : ClassSet => enc2 e.toNat) enable)
  | .lookupPlan plan => some (1, 1, enc1 plan)
  | .amendPlan plan f => some (2, 1, enc1 plan ++ encPlanFields f)
  | .retirePlan plan => some (3, 1, enc1 plan)
  | .nextPlan start plan => some (4, 1, encNext start (enc1 plan))
  | .lookupEntry plan tag => some (1, 2, enc1 plan ++ enc1 tag)
  | .amendEntry plan tag f => some (2, 2, enc1 plan ++ enc1 tag ++ encEntryFields f)
  | .retireEntry plan tag => some (3, 2, enc1 plan ++ enc1 tag)
  | .nextEntry start plan tag => some (4, 2, encNext start (enc1 plan ++ enc1 tag))
  | .lookupOverride division day => some (1, 3, enc1 division ++ enc2 day.toNat)
  | .amendOverride division day f => some (2, 3, enc1 division ++ enc2 day.toNat ++ encOverrideFields f)
  | .retireOverride division day => some (3, 3, enc1 division ++ enc2 day.toNat)
  | .nextOverride start division day => some (4, 3, encNext start (enc1 division ++ enc2 day.toNat))
  | .lookupShift day => some (1, 4, enc2 day.toNat)
  | .amendShift day f => some (2, 4, enc2 day.toNat ++ enc2 f.minute ++ encInt2 f.shift)
  | .retireShift day => some (3, 4, enc2 day.toNat)
  | .nextShift start day => some (4, 4, encNext start (enc2 day.toNat))
  | .lookupPattern pattern => some (1, 5, enc1 pattern)
  | .amendPattern pattern steps => some (2, 5, enc1 pattern ++ encSteps steps)
  | .retirePattern pattern => some (3, 5, enc1 pattern)
  | .nextPattern start pattern => some (4, 5, encNext start (enc1 pattern))
  | .lookupZone zone => some (1, 6, enc1 zone)
  | .amendZone zone f => some (2, 6, enc1 zone ++ encZoneFields f)
  | .retireZone zone => some (3, 6, enc1 zone)
  | .nextZone start zone => some (4, 6, encNext start (enc1 zone))
  | .lookupBuilding building => some (1, 7, enc1 building)
  | .nextBuilding start building => some (4, 7, encNext start (enc1 building))
  | .amendLine line f => some (2, 8, enc1 line ++ enc1 f.kind ++ enc1 f.hold ++ enc1 f.fast ++ enc1 f.width)
  | .lookupLine line => some (1, 8, enc1 line)
  | .nextLine start line => some (4, 8, encNext start (enc1 line))
  | .amendProgram program f => some (2, 9, enc1 program ++ encProgram f)
  | .retireProgram program => some (3, 9, enc1 program)
  | .lookupProgram program => some (1, 9, enc1 program)
  | .nextProgram start program => some (4, 9, encNext start (enc1 program))
  | .amendDivision division f => some (2, 10, enc1 division ++ encMap f.map f.cycleLength)
  | .lookupDivision division => some (1, 10, enc1 division)
  | .nextDivision start division => some (4, 10, encNext start (enc1 division))
  | .amendSite f => some (2, 11, enc1 f.epochWeekday ++ encFlag f.keyEnable ++ enc1 f.clearWindows ++ enc1 f.alarmProgram)
  | .lookupSite => some (1, 11, [])
  | .lookupAnnouncement record => some (1, 12, enc1 record)
  | .retireAnnouncement record => some (3, 12, enc1 record)
  | .nextAnnouncement start record => some (4, 12, encNext start (enc1 record))
  | .lookupCall zone => some (1, 13, enc1 zone)
  | .retireCall zone => some (3, 13, enc1 zone)
  | .nextCall start zone => some (4, 13, encNext start (enc1 zone))
  | .powerOnReset _ => none
  | .systemResetAssert => none
  | .systemResetRelease _ => none
  | .tick _ _ => none
  | .secondBoundary => none
  | .refPulse => none
  | .referenceLoss => none
  | .malformedRequest _ => none
  | .requestFrameDiscarded => none
  | .readFrame _ => none
  | .maximumDurationExpiry => none
  | .waitDeadlineExpiry _ => none
  | .automaticRetirement _ => none
  | .deferralDeadlineExpiry _ => none
  | .soundingEnd _ => none
  | .evacuationToneEnd => none
  | .allClearToneEnd => none
  | .evacuationTargetExpiry => none
  | .musterDeadlineExpiry => none
  | .pulseStart => none
  | .pulseCompletion _ => none
  | .fastPulseWait _ => none
  | .lineFault _ _ _ => none
  | .codedFrameEnd _ => none
  | .panelWindowEnd => none
  | .keyShortPress => none
  | .keyLongPress => none
  | .poll => none
  | .probe => none
  | .goodReport _ => none
  | .responseMiss => none

/-- Table 11-4: a request frame, from its kind byte to its check. -/
def requestFrame (code table : Nat) (body : List Byte) : List Byte :=
  withCheck (1 :: (enc1 (2 + body.length) ++ enc1 code ++ enc1 table ++ body))

/-- The frame of a request; none for a command that is no request. -/
def encodeRequest (i : Instr) : Option (List Byte) := (requestParts i).map (fun p => requestFrame p.1 p.2.1 p.2.2)

/-! ### Report frames (Table 11-6) -/

/-- One zone of a report. -/
def readZoneReport : Reader ZoneReport := do
  let zone ← read1
  let count ← read1
  let level ← readFlag
  return { zone, count, level }

/-- A report from its address to its pattern echo: the clear level in bit 0 and the amplifier fault in bit 1, the other bits clear. -/
def readReport : Reader Report := do
  let address ← read1
  let zones ← readList readZoneReport
  let flags ← read1
  let echo ← readOr255
  if flags < 4 then return { address, zones, clear := flags % 2 == 1, ampFault := flags / 2 == 1, echo } else failure

/-- R157 and R172: the report that a frame carries; none where the check fails or a field lies outside its encoding, and none where bytes are
missing or stand beyond the echo (DESIGN CHOICE, log 21). -/
def decodeReport (bytes : List Byte) : Option Report :=
  match (checkedFrame bytes).bind readReport with
  | some (r, []) => some r
  | _ => none

/-- One zone of a report, written. -/
def encZoneReport (x : ZoneReport) : List Byte := enc1 x.zone ++ enc1 x.count ++ encFlag x.level

/-- A report frame, written. -/
def encodeReport (r : Report) : List Byte :=
  withCheck (enc1 r.address ++ encList encZoneReport r.zones ++ enc1 (r.clear.toNat + 2 * r.ampFault.toNat) ++ encOr255 r.echo)

/-- R157: the command that a frame received in the response window is: a report, or a miss. -/
def linkCommand (bytes : List Byte) : Instr :=
  match decodeReport bytes with
  | some r => .goodReport r
  | none => .responseMiss

end Sys2Proof
end

