-- ==== Sys2Proof/Machine/Dispatch.lean ====
section
/-! DEFINITION. The dispatch of a command to its meaning, one arm for each row of spec/opcode_table.json. -/

namespace Sys2Proof.Machine

/-- The effect of a command on everything but the queue. -/
def exec (i : Instr) (s : State) : Host.Outcome State Fault Refusal :=
  match i with
  | .powerOnReset straps => Sys2Proof.Machine.execPowerOnReset straps s
  | .systemResetAssert => Sys2Proof.Machine.execSystemResetAssert s
  | .systemResetRelease straps => Sys2Proof.Machine.execSystemResetRelease straps s
  | .tick panel key => Sys2Proof.Machine.execTick panel key s
  | .secondBoundary => Sys2Proof.Machine.execSecondBoundary s
  | .refPulse => Sys2Proof.Machine.execRefPulse s
  | .referenceLoss => Sys2Proof.Machine.execReferenceLoss s
  | .setTime day second offset => Sys2Proof.Machine.execSetTime day second offset s
  | .timeReference day second => Sys2Proof.Machine.execTimeReference day second s
  | .setBaseMode mode => Sys2Proof.Machine.execSetBaseMode mode s
  | .announce fields => Sys2Proof.Machine.execAnnounce fields s
  | .release record => Sys2Proof.Machine.execRelease record s
  | .answerCall zone => Sys2Proof.Machine.execAnswerCall zone s
  | .clearCall zone => Sys2Proof.Machine.execClearCall zone s
  | .startDrill program => Sys2Proof.Machine.execStartDrill program s
  | .silence => Sys2Proof.Machine.execSilence s
  | .allClear => Sys2Proof.Machine.execAllClear s
  | .markBuilding building => Sys2Proof.Machine.execMarkBuilding building s
  | .lineControlRun line => Sys2Proof.Machine.execLineControlRun line s
  | .lineControlStop line => Sys2Proof.Machine.execLineControlStop line s
  | .lineControlSetPosition line position polarity => Sys2Proof.Machine.execLineControlSetPosition line position polarity s
  | .readStatus => Sys2Proof.Machine.execReadStatus s
  | .attention clear enable => Sys2Proof.Machine.execAttention clear enable s
  | .malformedRequest code => Sys2Proof.Machine.execMalformedRequest code s
  | .requestFrameDiscarded => Sys2Proof.Machine.execRequestFrameDiscarded s
  | .readFrame clocked => Sys2Proof.Machine.execReadFrame clocked s
  | .lookupPlan plan => Sys2Proof.Machine.execLookupPlan plan s
  | .amendPlan plan fields => Sys2Proof.Machine.execAmendPlan plan fields s
  | .retirePlan plan => Sys2Proof.Machine.execRetirePlan plan s
  | .nextPlan start plan => Sys2Proof.Machine.execNextPlan start plan s
  | .lookupEntry plan tag => Sys2Proof.Machine.execLookupEntry plan tag s
  | .amendEntry plan tag fields => Sys2Proof.Machine.execAmendEntry plan tag fields s
  | .retireEntry plan tag => Sys2Proof.Machine.execRetireEntry plan tag s
  | .nextEntry start plan tag => Sys2Proof.Machine.execNextEntry start plan tag s
  | .lookupOverride division day => Sys2Proof.Machine.execLookupOverride division day s
  | .amendOverride division day fields => Sys2Proof.Machine.execAmendOverride division day fields s
  | .retireOverride division day => Sys2Proof.Machine.execRetireOverride division day s
  | .nextOverride start division day => Sys2Proof.Machine.execNextOverride start division day s
  | .lookupShift day => Sys2Proof.Machine.execLookupShift day s
  | .amendShift day fields => Sys2Proof.Machine.execAmendShift day fields s
  | .retireShift day => Sys2Proof.Machine.execRetireShift day s
  | .nextShift start day => Sys2Proof.Machine.execNextShift start day s
  | .lookupPattern pattern => Sys2Proof.Machine.execLookupPattern pattern s
  | .amendPattern pattern steps => Sys2Proof.Machine.execAmendPattern pattern steps s
  | .retirePattern pattern => Sys2Proof.Machine.execRetirePattern pattern s
  | .nextPattern start pattern => Sys2Proof.Machine.execNextPattern start pattern s
  | .lookupZone zone => Sys2Proof.Machine.execLookupZone zone s
  | .amendZone zone fields => Sys2Proof.Machine.execAmendZone zone fields s
  | .retireZone zone => Sys2Proof.Machine.execRetireZone zone s
  | .nextZone start zone => Sys2Proof.Machine.execNextZone start zone s
  | .lookupBuilding building => Sys2Proof.Machine.execLookupBuilding building s
  | .nextBuilding start building => Sys2Proof.Machine.execNextBuilding start building s
  | .amendLine line fields => Sys2Proof.Machine.execAmendLine line fields s
  | .lookupLine line => Sys2Proof.Machine.execLookupLine line s
  | .nextLine start line => Sys2Proof.Machine.execNextLine start line s
  | .amendProgram program fields => Sys2Proof.Machine.execAmendProgram program fields s
  | .retireProgram program => Sys2Proof.Machine.execRetireProgram program s
  | .lookupProgram program => Sys2Proof.Machine.execLookupProgram program s
  | .nextProgram start program => Sys2Proof.Machine.execNextProgram start program s
  | .amendDivision division fields => Sys2Proof.Machine.execAmendDivision division fields s
  | .lookupDivision division => Sys2Proof.Machine.execLookupDivision division s
  | .nextDivision start division => Sys2Proof.Machine.execNextDivision start division s
  | .amendSite fields => Sys2Proof.Machine.execAmendSite fields s
  | .lookupSite => Sys2Proof.Machine.execLookupSite s
  | .lookupAnnouncement record => Sys2Proof.Machine.execLookupAnnouncement record s
  | .retireAnnouncement record => Sys2Proof.Machine.execRetireAnnouncement record s
  | .nextAnnouncement start record => Sys2Proof.Machine.execNextAnnouncement start record s
  | .lookupCall zone => Sys2Proof.Machine.execLookupCall zone s
  | .retireCall zone => Sys2Proof.Machine.execRetireCall zone s
  | .nextCall start zone => Sys2Proof.Machine.execNextCall start zone s
  | .maximumDurationExpiry => Sys2Proof.Machine.execMaximumDurationExpiry s
  | .waitDeadlineExpiry record => Sys2Proof.Machine.execWaitDeadlineExpiry record s
  | .automaticRetirement record => Sys2Proof.Machine.execAutomaticRetirement record s
  | .deferralDeadlineExpiry zone => Sys2Proof.Machine.execDeferralDeadlineExpiry zone s
  | .soundingEnd zone => Sys2Proof.Machine.execSoundingEnd zone s
  | .evacuationToneEnd => Sys2Proof.Machine.execEvacuationToneEnd s
  | .allClearToneEnd => Sys2Proof.Machine.execAllClearToneEnd s
  | .evacuationTargetExpiry => Sys2Proof.Machine.execEvacuationTargetExpiry s
  | .musterDeadlineExpiry => Sys2Proof.Machine.execMusterDeadlineExpiry s
  | .pulseStart => Sys2Proof.Machine.execPulseStart s
  | .pulseCompletion line => Sys2Proof.Machine.execPulseCompletion line s
  | .fastPulseWait line => Sys2Proof.Machine.execFastPulseWait line s
  | .lineFault line overcurrent openCircuit => Sys2Proof.Machine.execLineFault line overcurrent openCircuit s
  | .codedFrameEnd line => Sys2Proof.Machine.execCodedFrameEnd line s
  | .panelWindowEnd => Sys2Proof.Machine.execPanelWindowEnd s
  | .keyShortPress => Sys2Proof.Machine.execKeyShortPress s
  | .keyLongPress => Sys2Proof.Machine.execKeyLongPress s
  | .poll => Sys2Proof.Machine.execPoll s
  | .probe => Sys2Proof.Machine.execProbe s
  | .goodReport report => Sys2Proof.Machine.execGoodReport report s
  | .responseMiss => Sys2Proof.Machine.execResponseMiss s

end Sys2Proof.Machine
end

