-- ==== Sys2Proof/Safety.lean ====
section
/-! DEFINITION. What counts as a lawful state: the laws that the manual's blocks say they keep, block by block, and the vocabulary in which
the statements speak of a reply and of a command that the Command Port takes. -/

namespace Sys2Proof.Machine

/-! ### The vocabulary of the statements -/

/-- R163 and R166: a state with a reply in the reply buffer: the request-lost flag as it stood, then cleared, the request buffer free, and
nothing but 0 driven during the request's frame. -/
def answered (s : State) (code : Nat) (result : ResultCode) (body : ReplyBody) : State :=
  { s with port :=
    { requestHeld := false, requestLost := false, output := []
      reply := .held { code := code, result := result, lost := s.port.requestLost, body := body } } }

/-- The command is a request: a frame of the command port carries it (11.3, 11.4). -/
def Request (c : Instr) : Prop := (encodeRequest c).isSome = true

/-- A class's attention status is set (R169). -/
def statusSet (s : State) (c : EventClass) : Prop := mem s.attn.status c.number = true

/-- R166: what NEXT answers, given a key and from the start, when `follows` says which record follows: RANGE for a given key out of range,
otherwise the record that follows, or NOT_FOUND. -/
def NextTaken (s : State) (c : NextStart → Instr) (outOfRange : Prop) (asked : Key) (follows : NextStart → Key → RecordView → Prop) :
    Prop :=
  (outOfRange → exec (c .given) s = .next (answered s 4 .range (.nextKey .given asked))) ∧
  ∀ start, start = .fromStart ∨ (start = .given ∧ ¬ outOfRange) →
    (∀ k v, follows start k v → exec (c start) s = .next (answered s 4 .ok (.record k v))) ∧
    ((∀ k v, ¬ follows start k v) → exec (c start) s = .next (answered s 4 .notFound (.nextKey start asked)))

/-- The record of a numbered table that follows: the one with the least number, above the given one when one is given. -/
def FollowsIn {α : Type} (t : Table α) (n : Nat) (key : Nat → Key) (view : Nat → α → RecordView) (start : NextStart) (k : Key)
    (v : RecordView) : Prop :=
  ∃ e ∈ t, k = key e.1 ∧ v = view e.1 e.2 ∧ (start = .given → n < e.1) ∧ ∀ q ∈ t, (start = .given → n < q.1) → e.1 ≤ q.1

/-- R21: one division and day stand before another in the override table's order: by division, then by forward distance from today. -/
def overrideBefore (s : State) (a b : Nat × Day) : Prop :=
  a.1 < b.1 ∨ (a.1 = b.1 ∧ forwardDistance s.today a.2 < forwardDistance s.today b.2)

/-- R8: a shift record is passed by a movement of civil time: its application point lies after the old time and at or before the new. -/
def Passed (old new : CivilTime) (r : ShiftRecord) : Prop :=
  0 < civilAmount old { day := r.day, second := r.minute * 60 } ∧
    civilAmount old { day := r.day, second := r.minute * 60 } ≤ civilAmount old new

/-- R8: the shift records examined in the order of their day, each judged by the movement as it stands at that moment: `civil o` is the new
civil time under offset o, which is `before` at first and `after` once all are examined; `left` are the records that were not passed. -/
def PassesRecords (today : Day) (old : CivilTime) (civil : Int → CivilTime) (records : List ShiftRecord) (before after : Int)
    (left : List ShiftRecord) : Prop :=
  ∃ (l : List ShiftRecord) (o : Nat → Int), l.Perm records ∧
    l.Pairwise (fun a b => forwardDistance today a.day ≤ forwardDistance today b.day) ∧ o 0 = before ∧ o l.length = after ∧
    (∀ r ∈ left, r ∈ records) ∧
    ∀ i r, l[i]? = some r →
      (Passed old (civil (o i)) r → o (i + 1) = max (-720) (min 720 (o i + r.shift)) ∧ r ∉ left) ∧
      (¬ Passed old (civil (o i)) r → o (i + 1) = o i ∧ r ∈ left)

/-- R51, R64 and R65: an entry that a step reaches for a division: of its dispatch plan, due after a mark and at or before a second, on a cycle
day of its mask and within its validity on a day. -/
def Reached (s : State) (after : Nat → Mark) (upTo : Nat) (d : Day) (v : Nat) (e : Entry) : Prop :=
  ∃ copy : DispatchCopy, s.dispatch[v]? = some copy ∧ copy.plan = some e.plan ∧ e ∈ s.store.entries ∧ (after v).before e.due = true ∧
    e.due ≤ upTo ∧ (∀ n, copy.cycle = some n → mem e.mask n = true) ∧ (∀ a, e.validFrom = some a → forwardDistance a d ≤ 32767) ∧
    ∀ b, e.validUntil = some b → isBefore b d = false

/-- Entry e of division v is the one entry of some that names zone z. -/
def LoneFor (P : Nat → Entry → Prop) (z v : Nat) (e : Entry) : Prop :=
  P v e ∧ mem e.zones z = true ∧ ∀ v' e', P v' e' → mem e'.zones z = true → v' = v ∧ e' = e

/-- R54, R62 and R64: a zone after the one entry that a step took on it with a lateness: a Bell within the late limit in minutes sounds on an
Idle, unforced, unheld zone, a later one leaves it alone, and an aux entry sets the aux job level. -/
def takenLate (limit late : Nat) (e : Entry) (x : Zone) : Zone :=
  match e.action with
  | .bell p d _ _ => if late ≤ limit * 60 then
      { x with bell := .sounding p d (16 * d) ((x.tagCounter + 1) % 16), tagCounter := (x.tagCounter + 1) % 16 } else x
  | .auxOn => { x with aux := true }
  | .auxOff => { x with aux := false }

/-- R128: the call list after one press of a zone: a new call at its end while fewer than 32 are held, a repeat of a call the zone holds, or
the overflow flag. -/
def pressTaken (at_ : CivilStamp) (evacuating : Bool) (l : CallList) (z : Nat) : CallList :=
  if l.calls.any (fun c => c.zone == z) then
    { l with calls := l.calls.map (fun c => if c.zone = z then
        { c with repeats := min 15 (c.repeats + 1), duringEvacuation := c.duringEvacuation || evacuating } else c) }
  else if l.calls.length < 32 then
    { l with calls := l.calls ++ [{ zone := z, firstPress := at_, repeats := 0, duringEvacuation := evacuating }] }
  else { l with overflow := true }

/-- R110: a Waiting record could be granted: its coverage is met by zones that are free or held at a lower priority, and a bus that it may use
is free or that of a record of lower priority. -/
def Grantable (s : State) (a : Announcement) : Prop :=
  let eligible (z : Nat) : Prop := ∃ x, s.zones.get z = some x ∧
    (x.claim = none ∨ ∃ c b, x.claim = some c ∧ s.arb.slots.get c.record = some b ∧ b.priority.rank < a.priority.rank)
  (a.coverage = .all → ∀ z, mem a.requested z = true → eligible z) ∧
  (a.coverage = .any → ∃ z, mem a.requested z = true ∧ eligible z) ∧
  ∃ bus : Nat, bus < 4 ∧ (bus = 0 → a.priority = .emergency) ∧
    (s.arb.buses[bus]? = some none ∨
      ∃ k b, s.arb.slots.get k = some b ∧ b.state = .active bus ∧ b.priority.rank < a.priority.rank)

/-- The zone's bell is Idle and not forced and its speaker unheld, where the entry is a Bell. -/
def readyFor (s : State) (e : Entry) (x : Zone) : Prop :=
  ∀ p d h l, e.action = .bell p d h l →
    x.bell = .idle ∧ x.claim = none ∧ thresholdReached x.config.bellThreshold s.modes.effective = false

/-- R8, R26 and R29: a shift record that the rollovers of a step from one civil time to another retire. -/
def RetiredByStep (old new : CivilTime) (r : ShiftRecord) : Prop :=
  (0 ≤ civilAmount old new ∧ forwardDistance old.day r.day < forwardDistance old.day new.day) ∨
  (civilAmount old new < 0 ∧ old.day ≠ new.day ∧ 32768 ≤ forwardDistance new.day r.day)

/-- R77 and R78: a line after a minute boundary with the given target. -/
def AtMinute (target : Nat) (l m : Line) : Prop :=
  (l.state = .synced → l.owed = .none → m = { l with owed := .waiting }) ∧
  (l.state = .synced → l.owed ≠ .none → m = l.evaluate target) ∧
  (l.state = .holding ∨ l.state = .advancing →
    (l.position = target → m = { l with state := .synced, predicted := 0, owed := if l.owed = .waiting then .none else l.owed }) ∧
    (l.position ≠ target → l.owed ≠ .none → (l.position + 1) % 720 = target → m = { l with state := .synced, predicted := 0 }) ∧
    (l.position ≠ target → l.owed = .none ∨ (l.position + 1) % 720 ≠ target → m = l)) ∧
  (l.state = .unset ∨ l.state = .stopped ∨ l.state = .faulted ∨ l.state = .following → m = l)

/-- R38: one entry stands before another in the entry table's order: by plan, then by due second, then by tag. -/
def entryBefore (a b : Entry) : Prop :=
  a.plan < b.plan ∨ (a.plan = b.plan ∧ (a.due < b.due ∨ (a.due = b.due ∧ a.tag < b.tag)))

/-! ### Campus time and the calendar (R1, R14, R18, R19, R21, R27, R32, R136) -/

/-- Table 1-1: the ranges of the Time Base; a last label stands exactly while the reference is not Absent; the shift records are at most 4,
one for a day, within R14's ranges. -/
def TimeLaw (s : State) : Prop :=
  s.time.elapsedTicks ≤ s.time.secondLength ∧ 15 ≤ s.time.secondLength ∧ s.time.secondLength ≤ 17 ∧ s.time.stdSecond ≤ 86399 ∧
  -720 ≤ s.time.offset ∧ s.time.offset ≤ 720 ∧ -32 ≤ s.time.residual ∧ s.time.residual ≤ 32 ∧ s.time.pulseAge ≤ 48 ∧
  (∀ l, s.time.pendingLabel = some l → l.second ≤ 86399) ∧ (∀ l, s.time.lastLabel = some l → l.second ≤ 86399) ∧
  (s.time.refState = .absent ↔ s.time.lastLabel = none) ∧
  s.time.shifts.length ≤ 4 ∧ (s.time.shifts.map (·.day)).Nodup ∧
  (∀ r ∈ s.time.shifts, r.minute ≤ 1439 ∧ r.shift ≠ 0 ∧ -120 ≤ r.shift ∧ r.shift ≤ 120)

/-- Table 2-1's ranges for one division; a cycle day on a school day alone; a school day under a plan alone. -/
def Division.lawful (d : Division) : Prop :=
  1 ≤ d.cycleLength ∧ d.cycleLength ≤ 8 ∧ (∀ p, some p ∈ d.map.toList → p < 16) ∧
  (∀ n, d.lastCycle = some n ∨ d.previousCycle = some n ∨ d.todayCycle = some n → n < d.cycleLength) ∧
  (d.todayCycle.isSome ↔ d.schoolDay = true) ∧ (d.schoolDay = true → d.todayPlan.isSome) ∧
  d.missed ≤ 65535 ∧ d.suppressed ≤ 65535 ∧ (∀ n, d.mark = .at n → n ≤ 86399)

/-- R18, R19, R21, R24, R27, R32, R136: today is the civil day while time is valid, and none before; today's plan of a division is held and
owned by the division; the Dispatcher's copy is today's, outside reset; the overrides are at most 128, one for a key, within their
ranges; and the site record is within its ranges. -/
def CalendarLaw (s : State) : Prop :=
  (s.time.valid = true → s.cal.today = some s.time.civil.day) ∧
  (s.time.valid = false → s.cal.today = none ∧ ∀ d ∈ s.cal.divisions.toList, d.todayPlan = none ∧ d.schoolDay = false) ∧
  (∀ d ∈ s.cal.divisions.toList, d.lawful) ∧
  (∀ (v : Nat) (d : Division) (n : Nat), s.cal.divisions[v]? = some d → d.todayPlan = some n →
    ∃ p, s.store.plans.get n = some p ∧ p.division = v) ∧
  (s.resetHeld = false → ∀ (v : Nat) (d : Division), s.cal.divisions[v]? = some d →
    s.dispatch[v]? = some { plan := d.todayPlan, cycle := d.todayCycle }) ∧
  s.cal.overrides.length ≤ 128 ∧ (s.cal.overrides.map (fun o => (o.division, o.day))).Nodup ∧
  (∀ o ∈ s.cal.overrides, ∃ d : Division, s.cal.divisions[o.division]? = some d ∧
    (∀ p, o.kind = .plan p → p < 16) ∧ (∀ p n, o.kind = .planSet p n → p < 16 ∧ n < d.cycleLength)) ∧
  s.cal.site.epochWeekday ≤ 6 ∧ 2 ≤ s.cal.site.clearWindows ∧ s.cal.site.clearWindows ≤ 30 ∧ s.cal.site.alarmProgram ≤ 7

/-! ### Clock lines (R69, R72, R73, R81) -/

/-- A pulse in progress is in one of the four slots and has a width of 4 to 15 ticks (R69, R72). -/
def OwedPulse.lawful : OwedPulse → Prop
  | .inProgress slot _ width => slot < 4 ∧ 4 ≤ width ∧ width ≤ 15
  | _ => True

/-- Table 5-1's ranges, the states of each kind, N = 0 outside Advancing, and what a Coded or a Faulted line may not have. -/
def Line.lawful (l : Line) : Prop :=
  l.position ≤ 719 ∧ l.hold ≤ 180 ∧ 1 ≤ l.fast ∧ l.fast ≤ 15 ∧ 4 ≤ l.width ∧ l.width ≤ 15 ∧ l.sinceStart ≤ 240 ∧
  (l.state ≠ .advancing → l.predicted = 0) ∧
  (l.kind = .impulse → l.state ≠ .following ∧ l.frame = none) ∧
  (l.kind = .coded → (l.state = .following ∨ l.state = .stopped ∨ l.state = .faulted) ∧ l.owed = .none) ∧
  (l.state = .faulted → l.owed = .none ∧ l.frame = none) ∧
  l.owed.lawful

/-- R69 and R72: every line is lawful, and no two pulses in progress use one slot. -/
def LinesLaw (s : State) : Prop :=
  (∀ l ∈ s.lines.toList, l.lawful) ∧ (s.lines.toList.filterMap Line.slotUsed).Nodup

/-! ### Campus modes and evacuation (R134, R135, R143, R145) -/

/-- R134, R135: the base mode is at most Hold, and the level of the effective mode is the greatest of its sources. R137 to R139: the panel
monitor and the key monitor are within their ranges. -/
def ModeLaw (s : State) : Prop :=
  s.modes.base.level ≤ 2 ∧
  s.modes.effective.level =
    max s.modes.base.level (max
      (match s.modes.record with
        | some r => if r.kind = .drill then 3 else 4
        | none => 0)
      (if s.modes.panel = .alarm then 4 else 0)) ∧
  s.modes.windowTicks ≤ 32 ∧ s.modes.edges ≤ 9 ∧ s.modes.alarmRun ≤ 1 ∧ s.modes.quietRun < 30 ∧
  (∀ n, s.modes.key = .timing n → 1 ≤ n ∧ n ≤ 48) ∧ (∀ n, s.modes.key = .released n → n < 48)

/-- R141: a drill program within its ranges, every zone of its set held. -/
def programLawful (s : State) (f : ProgramFields) : Prop :=
  f.tone < 16 ∧ f.allClear < 16 ∧ 10 ≤ f.sounding ∧ f.sounding ≤ 600 ∧ 60 ≤ f.target ∧ f.target ≤ f.deadline ∧ f.deadline ≤ 3600 ∧
  1 ≤ f.allClearDuration ∧ f.allClearDuration ≤ 30 ∧ (∀ z, mem f.zones z = true → (s.zones.get z).isSome)

/-- R143 to R149: the drive, the fixed result and the program that a record's kind and phase call for; the buildings marked clear are
members of its program's muster set. -/
def EvacRecord.lawful (s : State) (r : EvacRecord) : Prop :=
  (r.drive.isSome ↔ r.phase = .sounding ∨ r.phase = .closing) ∧
  (∀ d, r.drive = some d → d.ticks ≤ 9600 ∧ ∀ e ∈ d.tags, e.2 < 16) ∧
  (r.fixedResult.isSome ↔ r.phase = .closing) ∧
  (r.phase = .mustered → r.musteredAt.isSome) ∧
  (r.kind = .drill → r.program.isSome) ∧
  (∀ p, r.program = some p → (s.modes.programs.get p).isSome) ∧
  (∀ b, b < 8 → (r.clears[b]?.getD none).isSome → mem (musterSetOf s r.program) b = true)

/-- R141, R143 and R145: every drill program and the evacuation record are lawful, and the panel state is Alarm only while an Alarm record
stands that is not in Closing. -/
def EvacuationLaw (s : State) : Prop :=
  (∀ e ∈ s.modes.programs, programLawful s e.2.fields) ∧
  (∀ r, s.modes.record = some r → r.lawful s) ∧
  (s.modes.panel = .alarm → ∃ r, s.modes.record = some r ∧ r.kind = .alarm ∧ r.phase ≠ .closing)

/-! ### Tables (R33, R38, R48, R90, R91, R108, R140) -/

/-- R33, R38, R90, R108 and R140: the keyed tables are in rising order of keys that are in range, the entries in the order of R38, and
pattern 0 is held. -/
def TablesLaw (s : State) : Prop :=
  s.store.plans.Sorted ∧ (∀ e ∈ s.store.plans, e.1 < 16) ∧
  s.store.patterns.Sorted ∧ (∀ e ∈ s.store.patterns, e.1 < 16) ∧
  s.zones.Sorted ∧ (∀ e ∈ s.zones, e.1 < 64) ∧
  s.modes.programs.Sorted ∧ (∀ e ∈ s.modes.programs, e.1 < 8) ∧
  s.arb.slots.Sorted ∧ (∀ e ∈ s.arb.slots, e.1 < 16) ∧
  s.store.entries.Pairwise (fun a b => a.orderKey < b.orderKey) ∧
  (∀ e ∈ s.store.entries, e.plan < 16 ∧ e.tag < 256 ∧ e.minute ≤ 2047 ∧ e.second ≤ 59) ∧
  (s.store.patterns.get 0).isSome

/-- R33, R34, R37, R39, R41, R44: the ranges of plans, entries and patterns; at most 128 entries of a plan and 512 in all; no two entries of a
plan share a due second with overlapping zone sets; and every zone that an entry names is held and of its plan's owning division. -/
def StoreLaw (s : State) : Prop :=
  (∀ e ∈ s.store.plans, e.2.division < 4 ∧ e.2.lateLimit ≤ 5) ∧
  (∀ e ∈ s.store.patterns, 1 ≤ e.2.steps.length ∧ e.2.steps.length ≤ 6 ∧ ∀ x ∈ e.2.steps, 1 ≤ x.on ∧ x.on ≤ 32 ∧ x.off ≤ 32) ∧
  s.store.entries.length ≤ 512 ∧ (∀ n, (s.store.entries.filter (fun e => e.plan == n)).length ≤ 128) ∧
  s.store.entries.Pairwise (fun a b => a.plan = b.plan → a.due = b.due → a.zones &&& b.zones = 0) ∧
  (∀ e ∈ s.store.entries,
    (∀ p d h l, e.action = .bell p d h l → p < 16 ∧ 1 ≤ d ∧ d ≤ 30 ∧ l ≤ 120) ∧
    ∀ p z, s.store.plans.get e.plan = some p → mem e.zones z = true → ∃ x, s.zones.get z = some x ∧ x.config.division = p.division)

/-- Table 6-1's ranges, and a call switch in a Room alone. -/
def ZoneConfig.lawful (c : ZoneConfig) : Prop :=
  c.building < 8 ∧ c.division < 4 ∧ (c.callSwitch = true → c.kind = .room) ∧ c.alertPattern < 16 ∧ 1 ≤ c.alertDuration ∧ c.alertDuration ≤ 10 ∧
  1 ≤ c.upper ∧ c.upper ≤ 255 ∧ c.lower ≤ c.upper ∧ 8 ≤ c.window ∧ c.window ≤ 255

/-- Table 4-1's ranges of a bell record. -/
def BellRecord.lawful : BellRecord → Prop
  | .idle => True
  | .sounding p d n tag => p < 16 ∧ 1 ≤ d ∧ d ≤ 30 ∧ n ≤ 16 * d ∧ tag < 16
  | .deferred p d _ l => p < 16 ∧ 1 ≤ d ∧ d ≤ 30 ∧ 1 ≤ l ∧ l ≤ 120

/-- R50, R90, R98 to R100: every zone is within its ranges; a Good zone has an empty window; and, outside reset, a zone of a Lost building is
Degraded. -/
def ZonesLaw (s : State) : Prop :=
  ∀ e ∈ s.zones, e.2.config.lawful ∧ e.2.bell.lawful ∧ e.2.tagCounter < 16 ∧ e.2.accumulator ≤ 65535 ∧ e.2.reports ≤ 255 ∧
    (e.2.path = .good → e.2.accumulator = 0 ∧ e.2.reports = 0 ∧ e.2.firstWindow = false) ∧
    (s.resetHeld = false → linkStateOf s e.2.config.building = .lost → e.2.path = .degraded)

/-- R91: the zone count of each building is the number of zones whose building field names it, and at most 16. -/
def ZoneCountLaw (s : State) : Prop :=
  ∀ b, b < 8 → (s.zoneCounts[b]?).getD 0 = (s.zones.filter (fun e => e.2.config.building == b)).length ∧
    (s.zoneCounts[b]?).getD 0 ≤ 16

/-- R48: how many records name a pattern: Bell entries, zones and drill programs, a program that names it twice counting once. -/
def namings (s : State) (p : Nat) : Nat :=
  (s.store.entries.filter (fun e => e.patternNamed == some p)).length +
  (s.zones.filter (fun e => e.2.config.alertPattern == p)).length +
  (s.modes.programs.filter (fun e => e.2.fields.tone == p || e.2.fields.allClear == p)).length

/-- R34 and R48: each held pattern's reference count is the number of records naming it and every pattern named is held; each held plan's
entry count is the number of its entries and every entry's plan is held. -/
def CountsLaw (s : State) : Prop :=
  (∀ p x, s.store.patterns.get p = some x → x.refs = namings s p) ∧
  (∀ p, 0 < namings s p → (s.store.patterns.get p).isSome) ∧
  (∀ n x, s.store.plans.get n = some x → x.entryCount = (s.store.entries.filter (fun e => e.plan == n)).length) ∧
  (∀ e ∈ s.store.entries, (s.store.plans.get e.plan).isSome)

/-! ### Announcements (R106, R108, R113, R119) and calls (R126) -/

/-- R106, R108 and R119: every live record's priority is allowed by the effective mode, no two live records share a source, and the arrival
order holds each live record once. -/
def LiveLaw (s : State) : Prop :=
  (∀ e ∈ s.arb.slots, e.2.live = true → modeAllows s.modes.effective e.2.priority = true) ∧
  s.arb.slots.Pairwise (fun a b => a.2.live = true → b.2.live = true → a.2.source ≠ b.2.source) ∧
  s.arb.arrival.Nodup ∧
  (∀ n, n ∈ s.arb.arrival ↔ ∃ a, s.arb.slots.get n = some a ∧ a.live = true)

/-- R106, R108, R109 and R113 for one record: its fields are in Table 7-1's ranges; an Active record holds a non-empty part of its requested set, every zone of which bears its claim,
and its bus entry is its own, bus 0 for Emergency alone; any other record holds nothing. -/
def Announcement.lawful (s : State) (n : Nat) (a : Announcement) : Prop :=
  a.requested ≠ 0 ∧ a.source ≤ 3 ∧ a.waitLimit ≤ 60 ∧ (a.maxDuration = none → a.priority = .emergency) ∧
  (∀ m, a.maxDuration = some m → 1 ≤ m ∧ m ≤ 600) ∧
  match a.state with
  | .active b =>
    a.startSecond.isSome ∧ a.held ≠ 0 ∧ a.held &&& ~~~a.requested = 0 ∧ b < 4 ∧ s.arb.buses[b]? = some (some { record := n, source := a.source }) ∧
    (b = 0 → a.priority = .emergency) ∧
    (∀ z, mem a.held z = true → ∃ x, s.zones.get z = some x ∧ x.claim = some { record := n, bus := b, talkBack := a.talkBack })
  | _ => a.held = 0

/-- R113: every claim is that of an Active announcement whose held set has the zone, every record is lawful, every bus entry is that of an
Active announcement, and a deferral stands only on a held zone (R57). -/
def ClaimsLaw (s : State) : Prop :=
  (∀ z x c, s.zones.get z = some x → x.claim = some c →
    ∃ a, s.arb.slots.get c.record = some a ∧ a.state = .active c.bus ∧ mem a.held z = true ∧ c.talkBack = a.talkBack) ∧
  (∀ n a, s.arb.slots.get n = some a → a.lawful s n) ∧
  (∀ b e, s.arb.buses[b]? = some (some e) → ∃ a, s.arb.slots.get e.record = some a ∧ a.state = .active b ∧ a.source = e.source) ∧
  (∀ z x, s.zones.get z = some x → x.bell.isDeferred = true → x.claim.isSome)

/-- R126: at most 32 calls, at most one per zone, each for a held Room with a call switch, with a repeat count of at most 15. -/
def CallsLaw (s : State) : Prop :=
  s.calls.calls.length ≤ 32 ∧ (s.calls.calls.map (·.zone)).Nodup ∧
  (∀ c ∈ s.calls.calls, callRoom s c.zone = true ∧ c.repeats ≤ 15)

/-! ### The building link (R153 to R160) -/

/-- Table 10-1 for one unit: it is Lost exactly at three misses; its levels are known only while it is Online; and an absent one is Unknown
with nothing pending and nothing in flight. -/
def Building.lawful (b : Building) : Prop :=
  b.misses ≤ 3 ∧ (b.link = .lost ↔ b.misses = 3) ∧ (b.link ≠ .online → b.levelsKnown = false) ∧
  (b.present = false → b.link = .unknown ∧ b.pending = 0 ∧ b.inFlight = none) ∧ (∀ g, b.inFlight = some g → g.pattern < 16)

/-- R153 to R157: every unit is lawful, the slot counter and the rotation marks are in range, and an exchange is with a present unit. -/
def LinkLaw (s : State) : Prop :=
  (∀ b ∈ s.link.buildings.toList, b.lawful) ∧ s.link.slotCounter < 16 ∧
  (∀ m, s.link.lastPolled = some m ∨ s.link.lastProbed = some m → m < 8) ∧
  (∀ x, s.link.exchange = some x → ∃ b : Building, s.link.buildings[x.building]? = some b ∧ b.present = true)

/-! ### All of them -/

/-- A lawful state: every law that the manual's blocks say they keep. -/
structure State.Lawful (s : State) : Prop where
  time : TimeLaw s
  calendar : CalendarLaw s
  lines : LinesLaw s
  modes : ModeLaw s
  evacuation : EvacuationLaw s
  tables : TablesLaw s
  store : StoreLaw s
  zones : ZonesLaw s
  zoneCounts : ZoneCountLaw s
  counts : CountsLaw s
  live : LiveLaw s
  claims : ClaimsLaw s
  calls : CallsLaw s
  link : LinkLaw s

end Sys2Proof.Machine
end

