-- ==== Sys2Proof/Certificates/Slice0/Obligations.lean ====
section
/-! DEFINITION. The statements of this model for the provers, each a `Prop` under its name; OBLIGATIONS.json lists them with the rules of
spec/ that they rest on. `log n` names a row of the assumption log. -/

open Sys2Proof Sys2Proof.Machine

/-! ### The whole machine -/

/-- One step takes the command at the front of the queue and runs it with the queue's rest; on an empty queue the part idles (the model's
choice, log 2). -/
def Obligations.StepTakesTheFrontCommand : Prop :=
  (∀ (c : Instr) (rest : List Instr) (s : State), step { s with pending := c :: rest } = exec c { s with pending := rest }) ∧
  (∀ s : State, s.pending = [] → step s = .next s)

/-- Every command, well formed or not, in every state, answers a next state and leaves the queue alone: the manual's part never stops. -/
def Obligations.EveryCommandGoesOn : Prop :=
  ∀ (c : Instr) (s : State), ∃ t, exec c s = .next t ∧ t.pending = s.pending

/-- R171, R17, R68, R89, R105, R125, R152, R162: while RESET is asserted, a command other than a reset, a tick, the Time Base's own
events and a read frame changes nothing; the Time Base's events leave the working domain as it is; and a read frame finds the output
undriven.
That a second assertion and an event command change nothing is the model's choice (log 14). -/
def Obligations.HeldPartKeepsItsWorkingDomain : Prop :=
  ∀ (c : Instr) (s : State), s.resetHeld = true →
    match c with
    | .powerOnReset _ => True
    | .systemResetRelease _ => True
    | .tick .. | .secondBoundary | .refPulse | .referenceLoss =>
      ∃ t, exec c s = .next t ∧ t.zones = s.zones ∧ t.arb = s.arb ∧ t.calls = s.calls ∧ t.lines = s.lines ∧ t.modes = s.modes ∧
        t.link = s.link ∧ t.port = s.port ∧ t.attn = s.attn ∧ t.dispatch = s.dispatch ∧ t.resetHeld = true
    | .readFrame _ => exec c s = .next { s with port := { s.port with output := [] } }
    | _ => exec c s = .next s

/-- R163: outside reset every request that a frame carries is taken at once and answered: the reply buffer holds a reply with the request's
own code, carrying the request-lost flag as it stood; the flag is cleared, the request buffer is free, and every byte driven during the frame
was 0. -/
def Obligations.EveryRequestIsAnswered : Prop :=
  ∀ (c : Instr) (s : State) (code table : Nat) (body : List Byte), s.resetHeld = false → requestParts c = some (code, table, body) →
    ∃ t result answer, exec c s = .next t ∧ (∀ k, outputByte t k = some 0) ∧
      t.port = { requestHeld := false, requestLost := false, output := []
                 reply := .held { code := code, result := result, lost := s.port.requestLost, body := answer } }

/-- 3.7, R166 and the refusals of every chapter: a request whose result is neither OK nor CLAMPED has changed nothing but the reply. -/
def Obligations.RefusedRequestsChangeNothing : Prop :=
  ∀ (c : Instr) (s t : State) (r : Reply), Request c → s.resetHeld = false → exec c s = .next t → t.port.reply = .held r →
    r.result ≠ .ok → r.result ≠ .clamped → t = { s with port := t.port }

/-- R2, R4, R6, R7: the elapsed-second counter advances at a second boundary alone, by one, and no step moves it; standard time moves at a
boundary or by a step of SET TIME or of a REF pulse alone; and the valid flag, once set, is cleared by power-on reset alone and is set by
SET TIME or a REF pulse alone. -/
def Obligations.OnlyTimeCommandsMoveTime : Prop :=
  ∀ (c : Instr) (s t : State), exec c s = .next t → (∀ straps, c ≠ .powerOnReset straps) →
    (c ≠ .secondBoundary → t.time.counter = s.time.counter) ∧
    (c = .secondBoundary → t.time.counter = s.time.counter ∨ t.time.counter = s.time.counter + 1) ∧
    (c ≠ .secondBoundary → c ≠ .refPulse → (∀ d n o, c ≠ .setTime d n o) →
      t.time.stdDay = s.time.stdDay ∧ t.time.stdSecond = s.time.stdSecond ∧ t.time.offset = s.time.offset) ∧
    (s.time.valid = true → t.time.valid = true) ∧
    (s.time.valid = false → t.time.valid = true → c = .refPulse ∨ ∃ d n o, c = .setTime d n o)

/-- R169 to R171: a status that is set stays set until ATTENTION clears its class or a reset clears all; the enables are changed by
ATTENTION and the resets alone. -/
def Obligations.AStatusStandsUntilCleared : Prop :=
  ∀ (c : Instr) (s t : State), exec c s = .next t →
    (∀ k, mem s.attn.status k = true →
      mem t.attn.status k = true ∨ (∃ clear enable, c = .attention clear enable ∧ mem clear k = true) ∨
        (∃ straps, c = .powerOnReset straps) ∨ c = .systemResetAssert) ∧
    (t.attn.enable = s.attn.enable ∨ (∃ clear enable, c = .attention clear enable) ∨ (∃ straps, c = .powerOnReset straps) ∨
      c = .systemResetAssert)

/-- What software has configured is changed by its own requests alone: the configuration of a zone by AMEND and RETIRE of the ZONE table,
the steps of the patterns by AMEND and RETIRE of the PATTERN table, the owner, tag, school-day flag and late limit of a plan by AMEND and
RETIRE of the PLAN table, the kind, H, F and W of a line by AMEND of the LINE table, the weekday map and the cycle length of a division by
AMEND of the DIVISION table, the site record by AMEND of the SITE table, the base mode by SET BASE MODE, the fields of a drill program by
AMEND and RETIRE of the PROGRAM table and by a zone's retirement (R94); no bell entry, override or time-shift record appears or changes but
by its AMEND, a zone's retirement (R94) and the clamp of a changed cycle length (R20); and each of them by power-on reset. -/
def Obligations.ConfigurationIsSoftwares : Prop :=
  ∀ (c : Instr) (s t : State), exec c s = .next t → (∀ straps, c ≠ .powerOnReset straps) →
    ((∀ z f, c ≠ .amendZone z f) → (∀ z, c ≠ .retireZone z) →
      t.zones.map (fun e => (e.1, e.2.config)) = s.zones.map (fun e => (e.1, e.2.config))) ∧
    ((∀ p f, c ≠ .amendPattern p f) → (∀ p, c ≠ .retirePattern p) →
      t.store.patterns.map (fun e => (e.1, e.2.steps)) = s.store.patterns.map (fun e => (e.1, e.2.steps))) ∧
    ((∀ p f, c ≠ .amendPlan p f) → (∀ p, c ≠ .retirePlan p) →
      t.store.plans.map (fun e => (e.1, { e.2 with entryCount := 0 })) = s.store.plans.map (fun e => (e.1, { e.2 with entryCount := 0 }))) ∧
    ((∀ n f, c ≠ .amendLine n f) →
      t.lines.map (fun l => (l.kind, l.hold, l.fast, l.width)) = s.lines.map (fun l => (l.kind, l.hold, l.fast, l.width))) ∧
    ((∀ v f, c ≠ .amendDivision v f) →
      t.cal.divisions.map (fun x => (x.map, x.cycleLength)) = s.cal.divisions.map (fun x => (x.map, x.cycleLength))) ∧
    ((∀ p k f, c ≠ .amendEntry p k f) → ∀ e ∈ t.store.entries, ∃ q ∈ s.store.entries,
      e = { q with zones := e.zones } ∧ ((∀ z, c ≠ .retireZone z) → e = q)) ∧
    ((∀ v d f, c ≠ .amendOverride v d f) → ∀ o ∈ t.cal.overrides, ∃ q ∈ s.cal.overrides,
      o = { q with kind := o.kind } ∧ ((∀ v f, c ≠ .amendDivision v f) → o = q)) ∧
    ((∀ d f, c ≠ .amendShift d f) → ∀ r ∈ t.time.shifts, r ∈ s.time.shifts) ∧
    ((∀ f, c ≠ .amendSite f) → t.cal.site = s.cal.site) ∧
    ((∀ m, c ≠ .setBaseMode m) → t.modes.base = s.modes.base) ∧
    ((∀ p f, c ≠ .amendProgram p f) → (∀ p, c ≠ .retireProgram p) → (∀ z, c ≠ .retireZone z) →
      t.modes.programs.map (fun e => (e.1, e.2.fields)) = s.modes.programs.map (fun e => (e.1, e.2.fields)))

/-! ### Frames of the command port and of the building link -/

/-- R165 to R167, R172 and 11.7: the frame of a well-formed request decodes to that request, with every field at every value that its
encoding admits.
The places that 11.7 leaves open are the model's choice (log 9). -/
def Obligations.RequestFramesDecode : Prop :=
  ∀ (i : Instr) (bytes : List Byte), i.wf = true → encodeRequest i = some bytes → decodeRequest bytes = some i

/-- R159, R172 and Table 11-6: the frame of a report within its encodings decodes to that report.
That the bits 2 to 7 of the flags must be 0 is the model's choice (log 9). -/
def Obligations.ReportFramesDecode : Prop := ∀ r : Report, fitsReport r = true → linkCommand (encodeReport r) = .goodReport r

/-- R172: a frame whose check holds fails it with any one of its bytes changed. -/
def Obligations.FrameCheckCatchesAByte : Prop :=
  ∀ (front back : List Byte) (b b' : Byte), checkedFrame (front ++ b :: back) ≠ none → b ≠ b' →
    checkedFrame (front ++ b' :: back) = none

/-! ### The laws that every step keeps -/

/-- The part right after power-on reset meets every law of a lawful state (R1, R18, R33, R69, R90, R106, R126, R135).
The straps of the reset state are the model's choice (log 1). -/
def Obligations.ResetIsLawful : Prop := State.reset.Lawful ∧ ∀ straps : Straps, (State.por straps).Lawful

/-- R69, R72, R73, R81: every step keeps each line record within Table 5-1's ranges, in a state of its kind, with what it may owe, and keeps
no two pulses in one driver slot, from every state in which that holds. -/
def Obligations.StepKeepsTheLines : Prop := ∀ s t : State, LinesLaw s → step s = .next t → LinesLaw t

/-- R134 to R150: every step of a lawful state keeps the base mode at Hold or below and the effective mode at the greatest of its sources, the
two monitors and the drill programs within their ranges, the evacuation record in a shape that its kind and phase call for, and the panel
state Alarm only beside an Alarm record that is not in Closing. -/
def Obligations.StepKeepsModesAndEvacuation : Prop := ∀ s t : State, s.Lawful → step s = .next t → ModeLaw t ∧ EvacuationLaw t

/-- R33, R34, R37 to R39, R41, R44, R90, R108, R140: every step of a lawful state keeps the keyed tables in rising order of keys in range, the
entries in the order of R38, and pattern 0 held; and it keeps the store's two laws: no two entries of a plan share a due second with
overlapping zone sets, and no plan holds more than 128 entries nor all of them more than 512, every zone that an entry names being held and
of the division that owns the entry's plan. -/
def Obligations.StepKeepsTheTables : Prop := ∀ s t : State, s.Lawful → step s = .next t → TablesLaw t ∧ StoreLaw t

/-- R34, R48, R91: every step of a lawful state keeps each pattern's reference count equal to the number of records naming it, each plan's
entry count equal to the number of its entries, and each building's zone count equal to the number of its zones, at most 16. -/
def Obligations.StepKeepsTheCounts : Prop := ∀ s t : State, s.Lawful → step s = .next t → CountsLaw t ∧ ZoneCountLaw t

/-- R106, R108, R119: every step of a lawful state keeps every live announcement at a priority that the effective mode allows, each source on
at most one live announcement, and each live record once in the arrival order. -/
def Obligations.StepKeepsLiveAnnouncementsAllowed : Prop := ∀ s t : State, s.Lawful → step s = .next t → LiveLaw t

/-- R106, R113, R57: every step of a lawful state keeps claims, held sets and bus entries in agreement, bus 0 for Emergency alone, and a
deferral only on a held zone. -/
def Obligations.StepKeepsTheClaims : Prop := ∀ s t : State, s.Lawful → step s = .next t → ClaimsLaw t

/-- R126 to R128: every step of a lawful state keeps at most 32 calls, at most one for each zone, each of a held Room with a call switch,
repeated at most 15 times. -/
def Obligations.StepKeepsTheCalls : Prop := ∀ s t : State, s.Lawful → step s = .next t → CallsLaw t

/-- R1, R14, R18, R19, R21, R24, R27, R32: every step of a lawful state keeps the Time Base within Table 1-1's ranges; today at the civil day once
time is valid, and none before; each division within Table 2-1's ranges, its plan of today held and its own, the Dispatcher's copy that of
today outside reset; and at most 4 shift records and 128 overrides, one for a key. That the elapsed ticks may stand at the second's length,
17 in a lengthened second, until the boundary is taken, where Table 1-1 gives 0 to 16, is the model's choice (log 6). -/
def Obligations.StepKeepsTimeAndCalendar : Prop := ∀ s t : State, s.Lawful → step s = .next t → TimeLaw t ∧ CalendarLaw t

/-- R50, R90, R98 to R100, R153 to R160: every step of a lawful state keeps each zone within its ranges, a Good zone with an empty window, and
outside reset a zone of a Lost building Degraded; and it keeps each unit Lost exactly at three misses, an absent unit Unknown with nothing
pending, and an exchange with a present unit alone. -/
def Obligations.StepKeepsZonesAndLink : Prop := ∀ s t : State, s.Lawful → step s = .next t → ZonesLaw t ∧ LinkLaw t

/-! ### Resets -/

/-- R1, R18, R33, R50, R69, R90, R106, R126, R136, R137, R139, R151, R153, R154, R155, R171: what power-on reset leaves, whatever stood before:
Table 1-1's values and time invalid; the divisions and the Dispatcher's copies empty; the site record at epoch weekday 0, drill key disabled,
5 clear windows and alarm program 7; no plan, entry, zone, program, announcement or call, and pattern 0 alone; every line as Table 5-1 has
it; Table 9-1's values, the key monitor spent; the buildings 0 to UNITS present and Unknown with pattern 0 pending, the slot counter 0 and
both marks none; and the port and the attention emptied. -/
def Obligations.PowerOnResetLeavesInitialValues : Prop :=
  ∀ (straps : Straps) (s : State), ∃ t, exec (.powerOnReset straps) s = .next t ∧
    t.time = { elapsedTicks := 0, secondLength := 16, stdSecond := 0, stdDay := 0, offset := 0, valid := false, refState := .absent,
               residual := 0, pendingLabel := none, lastLabel := none, pulseAge := 48, counter := 0, shifts := [] } ∧
    t.cal.today = none ∧ t.cal.overrides = [] ∧
    t.cal.site = { epochWeekday := 0, keyEnable := false, clearWindows := 5, alarmProgram := 7 } ∧
    (∀ v : Nat, v < 4 → t.cal.divisions[v]? = some
        { map := Vector.replicate 7 none, cycleLength := 1, lastCycle := none, previousCycle := none, lastCounted := none
          todayPlan := none, schoolDay := false, todayCycle := none, missed := 0, suppressed := 0, mark := .start } ∧
      t.dispatch[v]? = some { plan := none, cycle := none }) ∧
    t.store = { plans := [], entries := [], patterns := [(0, { steps := [{ on := 32, off := 0 }], refs := 0 })] } ∧
    t.zones = [] ∧ (∀ b : Nat, b < 8 → t.zoneCounts[b]? = some 0) ∧
    t.arb.slots = [] ∧ t.arb.arrival = [] ∧ (∀ b : Nat, b < 4 → t.arb.buses[b]? = some none) ∧
    t.calls = { calls := [], overflow := false } ∧
    (∀ n : Nat, n < 12 → t.lines[n]? = some
      { kind := .impulse, state := .unset, position := 0, hold := 65, fast := 2, width := 8, polarity := .a, predicted := 0
        fault := .none, owed := .none, sinceStart := 240, frame := none }) ∧
    t.modes = { base := .normal, effective := .normal, panel := .normal, windowTicks := 0, edges := 0, lastSample := false
                sampled := false, alarmRun := 0, quietRun := 0, key := .spent, programs := [], record := none } ∧
    t.link.straps = straps ∧ t.link.slotCounter = 0 ∧ t.link.slotStarted = false ∧ t.link.slotOpen = false ∧
    t.link.lastPolled = none ∧ t.link.lastProbed = none ∧ t.link.exchange = none ∧
    (∀ b : Nat, b < 8 → t.link.buildings[b]? = some
      { present := decide (b ≤ straps.units.val), link := .unknown, misses := 0, levelsKnown := false, clearLevel := false
        ampFault := false, callLevels := 0, eligible := 0, pending := if b ≤ straps.units.val then 1 else 0, inFlight := none }) ∧
    t.port = { requestHeld := false, requestLost := false, reply := .empty, output := [] } ∧
    t.attn = { status := 0, enable := 0 } ∧ t.resetHeld = false ∧ t.pending = s.pending

/-- R17, R68, R89, R105, R125, R126, R138, R139, R150, R152, R162, R171: what the assertion of RESET leaves. The Time Base, the tables and
the aux job levels stand; the live fields of the zones, the announcements, the calls, the pulses and the frames are cleared; an evacuation
record closes Interrupted into its program's last result; the effective mode becomes the base mode; the port and the attention are
emptied. -/
def Obligations.ResetAssertionClearsTheWorkInFlight : Prop :=
  ∀ s : State, s.resetHeld = false → ∃ t, exec .systemResetAssert s = .next t ∧ t.resetHeld = true ∧
    t.time = s.time ∧ t.cal = s.cal ∧ t.store = s.store ∧ t.zoneCounts = s.zoneCounts ∧ t.link.buildings = s.link.buildings ∧
    t.link.straps = s.link.straps ∧ t.link.exchange = none ∧
    (∀ z, t.zones.get z = (s.zones.get z).map (fun x =>
      { config := x.config, path := .good, accumulator := 0, reports := 0, firstWindow := false, alertDone := false, bell := .idle,
        tagCounter := 0, aux := x.aux, claim := none })) ∧
    t.arb.slots = [] ∧ t.arb.arrival = [] ∧ (∀ b : Nat, b < 4 → t.arb.buses[b]? = some none) ∧
    t.calls = { calls := [], overflow := false } ∧
    (∀ n : Nat, t.lines[n]? = (s.lines[n]?).map (fun l => { l with owed := .none, sinceStart := 240, frame := none })) ∧
    t.modes.base = s.modes.base ∧ t.modes.panel = .normal ∧ t.modes.key = .spent ∧ t.modes.record = none ∧
    t.modes.effective = s.modes.base ∧
    (∀ r p x, s.modes.record = some r → r.program = some p → s.modes.programs.get p = some x →
      t.modes.programs.get p = some { fields := x.fields, lastResult := some {
        kind := r.kind, startCivil := r.startCivil, endCivil := s.time.stamp, result := .interrupted, overdue := r.overdue,
        musterLate := r.musterLate, musteredAt := r.musteredAt, clears := r.clears, ampFaults := r.ampFaults } }) ∧
    t.port.reply = .empty ∧ t.port.requestHeld = false ∧ t.port.requestLost = false ∧ t.attn.status = 0 ∧ t.attn.enable = 0 ∧
    t.pending = s.pending

/-- R68, R89, R153, R154, R162: what the release of RESET leaves. The straps are sampled; the buildings are Unknown with every held pattern
pending to those present; each division's dispatch plan and cycle day are today's, its two counts are 0, and while time is valid its mark
stands at the current civil second; a line in a running state is evaluated while time is valid; the Time Base, the store and the zones
stand. -/
def Obligations.ResetReleaseTakesUpTheTime : Prop :=
  ∀ (straps : Straps) (s : State), s.resetHeld = true → ∃ t, exec (.systemResetRelease straps) s = .next t ∧
    t.resetHeld = false ∧ t.time = s.time ∧ t.store = s.store ∧ t.zones = s.zones ∧ t.zoneCounts = s.zoneCounts ∧ t.arb = s.arb ∧
    t.calls = s.calls ∧ t.port = s.port ∧ t.attn = s.attn ∧ t.pending = s.pending ∧
    t.link.straps = straps ∧ t.link.slotCounter = 0 ∧ t.link.lastPolled = none ∧ t.link.lastProbed = none ∧ t.link.exchange = none ∧
    (∀ (b : Nat) (x : Building), t.link.buildings[b]? = some x →
      x = { present := decide (b ≤ straps.units.val), link := .unknown, misses := 0, levelsKnown := false, clearLevel := false,
            ampFault := false, callLevels := 0, eligible := 0,
            pending := if b ≤ straps.units.val then ofMembers 16 s.store.patterns.keys else 0, inFlight := none }) ∧
    (∀ (v : Nat) (x : Division), s.cal.divisions[v]? = some x →
      t.dispatch[v]? = some { plan := x.todayPlan, cycle := x.todayCycle } ∧
      t.cal.divisions[v]? = some { x with
        missed := 0, suppressed := 0, mark := if s.time.valid then .at s.time.civil.second else x.mark }) ∧
    (∀ n : Nat, t.lines[n]? = (s.lines[n]?).map (fun l =>
      if s.time.valid then l.evaluateRunning (s.time.civil.second / 60 % 720) else l)) ∧
    t.modes.windowTicks = 0 ∧ t.modes.edges = 0 ∧
    (s.modes.record = none → s.modes.panel = .normal → t.modes.effective = s.modes.base) ∧ t.modes.base = s.modes.base ∧ t.modes.programs = s.modes.programs

/-! ### Campus time -/

/-- R5: civil time from the standard day, the standard second and the offset: the quotient of the signed total by 86 400 rounded down, modulo
65 536, and what is left of the total. A snapshot carries it, with its minute and with the tick limited to 15 (R1, R16). The civil amount
of a movement is the new civil time less the old in seconds, the days taken from −32 768 to +32 767 (R7). -/
def Obligations.CivilTimeOfAStandardTime : Prop :=
  (∀ (d : Day) (n : Nat) (o : Int), ∃ q : Int,
    q * 86400 ≤ (d.toNat : Int) * 86400 + n + o * 60 ∧ (d.toNat : Int) * 86400 + n + o * 60 < (q + 1) * 86400 ∧
    ((civilOf d n o).day.toNat : Int) = q % 65536 ∧
    ((civilOf d n o).second : Int) = (d.toNat : Int) * 86400 + n + o * 60 - q * 86400) ∧
  (∀ t : TimeBase, t.snapshot.civilDay = (civilOf t.stdDay t.stdSecond t.offset).day ∧
    t.snapshot.civilSecond = (civilOf t.stdDay t.stdSecond t.offset).second ∧ t.snapshot.civilSecond < 86400 ∧
    t.snapshot.civilMinute = t.snapshot.civilSecond / 60 ∧ t.snapshot.civilMinute < 1440 ∧
    t.snapshot.tick = min 15 t.elapsedTicks) ∧
  (∀ (a b : CivilTime) (days : Int), -32768 ≤ days → days ≤ 32767 → b.day = a.day + BitVec.ofInt 16 days →
    civilAmount a b = days * 86400 + b.second - a.second)

/-- R2, R55, R71, R88, R137, R139, R146, R155: what a tick counts. The Time Base's elapsed ticks and pulse age rise (the elapsed ticks no
further than the second's length and the pulse age no further than 48); outside reset the soundings' and the drive's remaining ticks fall,
the lines' ticks rise, the two monitors take their samples and a poll slot begins; nothing else changes. That a tick leaves what it makes
due to a command of its own is the model's choice (log 6): the elapsed ticks stop at the second's length, a sounding or a drive that the tick
brings to 0 stands there, a full panel window and a key count of 48 stand to be judged, and a key let go after a short press stands released,
its KEY event yet to be raised. -/
def Obligations.TickCounts : Prop :=
  ∀ (panel key : Bool) (s : State), ∃ t, exec (.tick panel key) s = .next t ∧
    t.time = { s.time with elapsedTicks := min s.time.secondLength (s.time.elapsedTicks + 1), pulseAge := min 48 (s.time.pulseAge + 1) } ∧
    (s.resetHeld = true → t = { s with time := t.time }) ∧
    (s.resetHeld = false →
      (∀ z, t.zones.get z = (s.zones.get z).map (fun x => { x with bell := match x.bell with
        | .sounding p d n tag => .sounding p d (n - 1) tag
        | b => b })) ∧
      (∀ n : Nat, t.lines[n]? = (s.lines[n]?).map (fun l => { l with
        sinceStart := min 240 (l.sinceStart + 1), frame := l.frame.map (fun f => { f with ticks := f.ticks + 1 }) })) ∧
      t.modes.record = s.modes.record.map (fun r => { r with drive := r.drive.map (fun d => { d with ticks := d.ticks - 1 }) }) ∧
      (s.modes.windowTicks < 32 →
        t.modes.windowTicks = s.modes.windowTicks + 1 ∧ t.modes.lastSample = (panel == s.link.straps.panelActiveHigh) ∧
        t.modes.edges = if s.modes.sampled && t.modes.lastSample && !s.modes.lastSample then min 9 (s.modes.edges + 1) else s.modes.edges) ∧
      (s.modes.key = .spent → t.modes.key = if key then .spent else .ready) ∧
      (s.modes.key = .ready → t.modes.key = if key then .timing 1 else .ready) ∧
      (∀ n, s.modes.key = .timing n → n < 48 → t.modes.key = if key then .timing (n + 1) else .released n) ∧
      t.link.slotCounter = (if s.link.slotStarted then (s.link.slotCounter + 1) % 16 else s.link.slotCounter) ∧
      t = { s with time := t.time, zones := t.zones, lines := t.lines
                   modes := { s.modes with windowTicks := t.modes.windowTicks, edges := t.modes.edges, lastSample := t.modes.lastSample
                                           sampled := t.modes.sampled, key := t.modes.key, record := t.modes.record }
                   link := { s.link with slotCounter := t.link.slotCounter, slotStarted := true, slotOpen := true } })

/-- R2, R3, R15, R51, R52, R77, R78, R87, R88: the end of a second. Before the elapsed ticks have reached the second's length there is no
boundary. At it the standard time, the counter, the residual, the reference state and the length of the new second are as R2 says. While
time is invalid nothing else changes. While it is valid the boundary has the civil time c of the second just begun, before any shift: the
marks come up to it, a rollover resolves its day, the lines take the minute and start their frames; and a shift record that falls due at c
is retired, its shift added to the offset within its limits, and where the offset has changed the state after the boundary takes the step
event of that movement, later records being passed as R8 says. (What a step event does is in SetTimeSteps, a due bell in
BoundaryRingsADueBell.) What expires at the boundary may be taken in it or by its own command (log 7), and nothing is said of it here. That a
boundary command before its time changes nothing is the model's choice (log 5). -/
def Obligations.SecondBoundaryEndsTheSecond : Prop :=
  ∀ s : State,
    (s.time.elapsedTicks < s.time.secondLength → exec .secondBoundary s = .next s) ∧
    (s.time.secondLength ≤ s.time.elapsedTicks → ∃ t, exec .secondBoundary s = .next t ∧
      t.time.elapsedTicks = 0 ∧
      t.time.stdSecond = (if s.time.stdSecond = 86399 then 0 else s.time.stdSecond + 1) ∧
      t.time.stdDay = (if s.time.stdSecond = 86399 then s.time.stdDay + 1 else s.time.stdDay) ∧
      t.time.residual = (if s.time.secondLength = 15 ∧ -32 < s.time.residual then s.time.residual - 1
        else if s.time.secondLength = 17 ∧ s.time.residual < 32 then s.time.residual + 1 else s.time.residual) ∧
      t.time.refState = (if t.time.residual = 0 ∧ s.time.refState = .slewing then .locked else s.time.refState) ∧
      t.time.counter = s.time.counter + 1 ∧
      t.time.secondLength = (if 0 < t.time.residual then 15 else if t.time.residual < 0 then 17 else 16) ∧
      t.time.valid = s.time.valid ∧ t.time.pendingLabel = s.time.pendingLabel ∧ t.time.lastLabel = s.time.lastLabel ∧
      t.time.pulseAge = s.time.pulseAge ∧
      (s.time.shifts = [] → t.time.offset = s.time.offset ∧ t.time.shifts = []) ∧
      (s.time.valid = false → t = { s with time := t.time } ∧ t.time.offset = s.time.offset ∧ t.time.shifts = s.time.shifts) ∧
      t.port = s.port ∧ t.link = s.link ∧ t.modes = s.modes ∧ t.zoneCounts = s.zoneCounts ∧ t.resetHeld = s.resetHeld ∧
      t.pending = s.pending ∧ t.cal.site = s.cal.site ∧ t.store.plans.keys = s.store.plans.keys ∧
      (∀ c : CivilTime, s.time.valid = true → c = civilOf t.time.stdDay t.time.stdSecond s.time.offset → ∃ b : State,
        let due (r : ShiftRecord) : Prop := r ∈ s.time.shifts ∧ r.day = c.day ∧ r.minute * 60 = c.second
        let left (r : ShiftRecord) : Prop := c.second = 0 ∧ r.day = c.day - 1
        let shifted (r : ShiftRecord) : Int := max (-720) (min 720 (s.time.offset + r.shift))
        b.time = { t.time with shifts := b.time.shifts } ∧
        ((∀ r, due r → shifted r = s.time.offset) → t = b ∧ t.time.offset = s.time.offset ∧
          (TimeLaw s → ∀ r, r ∈ t.time.shifts ↔ r ∈ s.time.shifts ∧ ¬ due r ∧ ¬ left r)) ∧
        (∀ r, TimeLaw s → due r → shifted r ≠ s.time.offset → t = b.stepEvent c ∧ ∃ rest,
          PassesRecords s.today c (civilOf t.time.stdDay t.time.stdSecond) (s.time.shifts.filter (fun q => q.day != c.day)) (shifted r)
            b.time.offset rest ∧ (∀ q, q ∈ b.time.shifts ↔ q ∈ rest ∧ ¬ left q)) ∧
        (∀ r, TimeLaw s → s.resetHeld = false → due r → s.time.offset + r.shift < -720 ∨ 720 < s.time.offset + r.shift →
          statusSet t .time) ∧
        (s.resetHeld = true → b.lines = s.lines) ∧
        (s.resetHeld = false →
          (∀ (n : Nat) (l : Line), s.lines[n]? = some l → ∃ m : Line,
            b.lines[n]? = some (if l.state = .following
              then { m with frame := some { hour := c.second / 3600, minute := c.second / 60 % 60, second := c.second % 60, ticks := 0 } }
              else m) ∧
            (c.second % 60 ≠ 0 → m = l) ∧ (c.second % 60 = 0 → AtMinute (c.second / 60 % 720) l m) ∧
            (l.state = .holding ∨ l.state = .advancing → m.state = .synced → statusSet t .line)) ∧
          (∀ (v : Nat) (x : Division), s.cal.divisions[v]? = some x → ∃ y : Division, b.cal.divisions[v]? = some y ∧
            (c.second ≠ 0 → y = { x with missed := y.missed, suppressed := y.suppressed
                                         mark := if x.mark.before c.second then .at c.second else x.mark } ∧
              b.dispatch = s.dispatch ∧ b.cal.today = s.cal.today ∧ b.store = s.store) ∧
            (∀ w : Division, c.second = 0 → (s.rolloverCalendar c.day).cal.divisions[v]? = some w →
              y = { w with missed := y.missed, suppressed := y.suppressed, mark := .at 0 } ∧
              b.dispatch[v]? = some { plan := y.todayPlan, cycle := y.todayCycle } ∧ b.cal.today = some c.day ∧
              b.cal.overrides = (s.rolloverCalendar c.day).cal.overrides ∧ b.store = (s.rolloverCalendar c.day).store)))))

/-- R49, R51, R54, R55: a boundary rings a bell. Outside reset, with time valid, no announcement, no deferral and no shift record held, let the
second just begun be second c of a civil day, c not 0, and let an entry of a division's dispatch plan fall due in it, after the mark, on a
cycle day of its mask and within its validity, ringing on a held zone whose bell is Idle and not forced, no other due entry naming the
zone. Then the zone's bell record is Sounding with the entry's pattern and duration, 16 ticks a second, and the next start tag. -/
def Obligations.BoundaryRingsADueBell : Prop :=
  ∀ (s : State) (c : CivilTime) (v : Nat) (copy : DispatchCopy) (e : Entry) (p d l z : Nat) (h : Bool) (x : Zone),
    s.resetHeld = false → s.time.valid = true → s.time.secondLength ≤ s.time.elapsedTicks → s.arb.slots = [] → s.arb.arrival = [] →
    s.time.shifts = [] → (∀ z' x', s.zones.get z' = some x' → x'.claim = none ∧ x'.bell.isDeferred = false) →
    c = (if s.time.stdSecond = 86399 then civilOf (s.time.stdDay + 1) 0 s.time.offset
         else civilOf s.time.stdDay (s.time.stdSecond + 1) s.time.offset) →
    c.second ≠ 0 → s.dispatch[v]? = some copy → copy.plan = some e.plan → e ∈ s.store.entries → e.action = .bell p d h l →
    e.minute * 60 + e.second = c.second → (markOf s v).before c.second = true →
    (∀ n, copy.cycle = some n → mem e.mask n = true) →
    (∀ a, e.validFrom = some a → forwardDistance a c.day ≤ 32767) → (∀ b, e.validUntil = some b → isBefore b c.day = false) →
    mem e.zones z = true → s.zones.get z = some x → x.bell = .idle → thresholdReached x.config.bellThreshold s.modes.effective = false →
    (∀ v' copy' e', s.dispatch[v']? = some copy' → e' ∈ s.store.entries → copy'.plan = some e'.plan →
      (markOf s v').before e'.due = true → e'.due ≤ c.second → mem e'.zones z = true → e' = e ∧ v' = v) →
    ∃ t, exec .secondBoundary s = .next t ∧
      t.zones.get z = some { x with bell := .sounding p d (16 * d) ((x.tagCounter + 1) % 16), tagCounter := (x.tagCounter + 1) % 16 }

/-- R11 and R12: a REF pulse. Below age 8, or with no label, it is ignored. A labelled pulse whose error lies within 32 ticks while time is
valid sets the residual and the reference state and moves no time; any other labelled pulse steps standard time to the label at tick 0,
time becoming valid, with the reference Locked; the records that the step passes are passed, and the step event taken, as R7 and R8 say (what
it does is in SetTimeSteps). The label is the pending one, or the last one and a second. R13: at a pulse age of 48 while
Locked or Slewing the reference is lost: it becomes Absent and the last label none, with a TIME event, the pending label and the residual
being kept, and a later pulse without a pending label is ignored; at any other moment nothing is lost.
That a loss command at another moment changes nothing is the model's choice (log 5). -/
def Obligations.ReferenceDiscipline : Prop :=
  ∀ (s : State),
    (s.time.pulseAge = 48 → s.time.refState ≠ .absent →
      exec .referenceLoss s = .next (({ s with time := { s.time with refState := .absent, lastLabel := none } } : State).raise .time)) ∧
    (s.time.pulseAge < 48 ∨ s.time.refState = .absent → exec .referenceLoss s = .next s) ∧
    (∀ t, s.time.pulseAge = 48 → s.time.refState ≠ .absent → s.time.pendingLabel = none → exec .referenceLoss s = .next t →
      exec .refPulse t = .next t) ∧
    (s.time.pulseAge < 8 → exec .refPulse s = .next s) ∧
    (s.time.pendingLabel = none → s.time.refState = .absent → exec .refPulse s = .next s) ∧
    (∀ (l : Label) (days e : Int), 8 ≤ s.time.pulseAge →
      (s.time.pendingLabel = some l ∨ (s.time.pendingLabel = none ∧ s.time.refState ≠ .absent ∧
        ∃ p, s.time.lastLabel = some p ∧
          l = (if p.second = 86399 then { day := p.day + 1, second := 0 } else { day := p.day, second := p.second + 1 }))) →
      days = (if 32768 ≤ (l.day - s.time.stdDay).toNat then ((l.day - s.time.stdDay).toNat : Int) - 65536
              else ((l.day - s.time.stdDay).toNat : Int)) →
      e = (days * 86400 + l.second - s.time.stdSecond) * 16 - s.time.elapsedTicks →
      (s.time.valid = true → -32 ≤ e → e ≤ 32 →
        exec .refPulse s = .next (({ s with time := { s.time with
          pulseAge := 0, pendingLabel := none, lastLabel := some l, residual := e
          refState := if e = 0 then .locked else .slewing } } : State).raiseIf (s.time.refState == .absent) .time)) ∧
      (s.time.valid = false ∨ e < -32 ∨ 32 < e → ∃ b u t : State, exec .refPulse s = .next t ∧
        b = { s with attn := b.attn, time := { s.time with
          pulseAge := 0, pendingLabel := none, lastLabel := some l, stdDay := l.day, stdSecond := l.second, elapsedTicks := 0
          residual := 0, secondLength := 16, valid := true, offset := b.time.offset, shifts := b.time.shifts } } ∧
        (s.time.valid = false → b.time.offset = s.time.offset ∧ b.time.shifts = s.time.shifts) ∧
        (s.time.valid = true → TimeLaw s →
          PassesRecords s.today s.time.civil (civilOf l.day l.second) s.time.shifts s.time.offset b.time.offset b.time.shifts) ∧
        u = (if s.time.valid then b.stepEvent s.time.civil else b.validatingEvent) ∧
        t = ({ u with time := { u.time with refState := .locked } } : State).raiseIf (s.time.refState == .absent) .time ∧
        t.time.stdDay = l.day ∧ t.time.stdSecond = l.second ∧ t.time.elapsedTicks = 0 ∧ t.time.residual = 0 ∧ t.time.secondLength = 16 ∧
        t.time.refState = .locked ∧ t.time.valid = true ∧ t.time.pulseAge = 0 ∧ t.time.pendingLabel = none ∧ t.time.lastLabel = some l ∧
        t.time.counter = s.time.counter ∧ t.port = s.port ∧ t.arb = s.arb ∧ t.calls = s.calls ∧ t.modes = s.modes ∧ t.link = s.link ∧
        (s.resetHeld = false → statusSet t .time)))

/-- R9, R6, R7, R8: SET TIME steps standard time to the given day and second (clamped to 86 399) at tick 0, makes time valid, drops the
reference and both labels, gives the offset when one is carried (clamped to 720 either way), passes the shift records that the movement
passes, raises a TIME event, and replies OK, or CLAMPED after a clamp, with the snapshot after the step. The counter does not move.
R26, R28, R29, R64 to R67, R87: what the step event does, whichever command makes it. Each running line is evaluated against the new civil
minute. A forward step within a day brings the marks up to the new second; one across days takes a rollover for each and leaves the marks at
the new second; an entry that is alone in reaching a zone is taken on it by the late rule, with its lateness against the new second or the
old day's end, and a zone that no entry reaches is left alone. A backward step touches no zone and no entry, and into an earlier day it is the
backward-rollover. A validating step resolves its day, sets the marks to the new second, and touches no zone and no line. -/
def Obligations.SetTimeSteps : Prop :=
  (∀ (day : Day) (second : Nat) (offset : Option Int) (s : State), s.resetHeld = false →
    ∃ b u t : State, exec (.setTime day second offset) s = .next t ∧
      b = { s with attn := b.attn, time := { s.time with
        stdDay := day, stdSecond := min 86399 second, elapsedTicks := 0, residual := 0, secondLength := 16, valid := true
        offset := b.time.offset, shifts := b.time.shifts } } ∧
      (∀ given : Int, given = (match offset with
          | some o => max (-720) (min 720 o)
          | none => s.time.offset) →
        (s.time.valid = false ∨ s.time.shifts = [] → b.time.offset = given ∧ b.time.shifts = s.time.shifts) ∧
        (s.time.valid = true → TimeLaw s →
          PassesRecords s.today s.time.civil (civilOf day (min 86399 second)) s.time.shifts given b.time.offset b.time.shifts)) ∧
      u = (if s.time.valid then b.stepEvent s.time.civil else b.validatingEvent) ∧
      t.time = { u.time with pendingLabel := none, lastLabel := none, pulseAge := 48, refState := .absent } ∧
      t = answered { u with time := t.time } 16
        (if 86399 < second ∨ (∃ o, offset = some o ∧ (o < -720 ∨ 720 < o)) then .clamped else .ok) (.snapshot t.time.snapshot) ∧
      t.time.stdDay = day ∧ t.time.stdSecond = min 86399 second ∧ t.time.elapsedTicks = 0 ∧ t.time.secondLength = 16 ∧
      t.time.residual = 0 ∧ t.time.valid = true ∧ t.time.counter = s.time.counter ∧ t.time.offset = b.time.offset ∧
      statusSet t .time ∧ t.arb = s.arb ∧ t.calls = s.calls ∧ t.modes = s.modes ∧ t.link = s.link ∧ t.pending = s.pending) ∧
  (∀ (s u : State) (old new : CivilTime), s.resetHeld = false → new = s.time.civil → u = s.stepEvent old →
    statusSet u .time ∧
    u = { s with time := { s.time with shifts := u.time.shifts }, cal := u.cal, dispatch := u.dispatch, store := u.store
                 zones := u.zones, lines := u.lines, attn := u.attn, freeCount := u.freeCount } ∧
    (∀ r, r ∈ u.time.shifts ↔ r ∈ s.time.shifts ∧ ¬ RetiredByStep old new r) ∧
    (∀ (n : Nat) (l : Line), s.lines[n]? = some l → u.lines[n]? = some (l.evaluateRunning (new.second / 60 % 720))) ∧
    (civilAmount old new < 0 → u.zones = s.zones ∧ u.store = s.store ∧
      (old.day = new.day → u.cal = s.cal ∧ u.dispatch = s.dispatch) ∧
      (old.day ≠ new.day → u.cal = (s.backwardRollover new.day).cal ∧ u.dispatch = (s.backwardRollover new.day).dispatch ∧
        statusSet u .calendar)) ∧
    (0 ≤ civilAmount old new → old.day = new.day →
      let reached := Reached s (markOf s) new.second new.day
      u.store = s.store ∧ u.dispatch = s.dispatch ∧ u.cal.today = s.cal.today ∧ u.cal.overrides = s.cal.overrides ∧
      (∀ (v : Nat) (x : Division), s.cal.divisions[v]? = some x → ∃ y : Division, u.cal.divisions[v]? = some y ∧
        y = { x with missed := y.missed, suppressed := y.suppressed
                     mark := if x.mark.before new.second then .at new.second else x.mark } ∧
        ((∀ w e, ¬ reached w e) → y.missed = x.missed ∧ y.suppressed = x.suppressed)) ∧
      (∀ z, (∀ v e, reached v e → mem e.zones z = false) → u.zones.get z = s.zones.get z) ∧
      (∀ v e z x p, LoneFor reached z v e → s.zones.get z = some x → s.store.plans.get e.plan = some p → readyFor s e x →
        u.zones.get z = some (takenLate p.lateLimit (new.second - e.due) e x)) ∧
      (∀ v e z x p pattern d h l, reached v e → (∀ w q, reached w q → w = v ∧ q = e) → s.store.entries.Nodup →
        e.action = .bell pattern d h l → e.zones = single 64 z → z < 64 → s.zones.get z = some x →
        s.store.plans.get e.plan = some p → p.lateLimit * 60 < new.second - e.due →
        statusSet u .bell ∧ ∀ (q y : Division), s.cal.divisions[x.config.division]? = some q →
          u.cal.divisions[x.config.division]? = some y → y.missed = min 65535 (q.missed + 1))) ∧
    (0 ≤ civilAmount old new → old.day ≠ new.day →
      let ended := Reached s (markOf s) 86399 old.day
      let begun := Reached u (fun _ => .start) new.second new.day
      let rolled : State := (List.range (forwardDistance old.day new.day)).foldl
        (fun w i => w.rolloverCalendar (old.day + BitVec.ofNat 16 (i + 1))) s
      u.cal.today = some new.day ∧ u.cal.overrides = rolled.cal.overrides ∧ u.store = rolled.store ∧
      (∀ (v : Nat) (x : Division), rolled.cal.divisions[v]? = some x → ∃ y : Division, u.cal.divisions[v]? = some y ∧
        y = { x with missed := y.missed, suppressed := y.suppressed, mark := .at new.second } ∧
        u.dispatch[v]? = some { plan := x.todayPlan, cycle := x.todayCycle }) ∧
      (∀ z, (∀ v e, ended v e ∨ begun v e → mem e.zones z = false) → u.zones.get z = s.zones.get z) ∧
      (∀ v e z x p, LoneFor ended z v e → (∀ w q, begun w q → mem q.zones z = false) →
        (∀ n, e.validUntil = some n → isBefore n (old.day + 1) = false) → s.zones.get z = some x →
        s.store.plans.get e.plan = some p → readyFor s e x →
        u.zones.get z = some (takenLate p.lateLimit (86400 - e.due) e x)) ∧
      (∀ v e z x p, LoneFor begun z v e → (∀ w q, ended w q → mem q.zones z = false) → s.zones.get z = some x →
        u.store.plans.get e.plan = some p → readyFor s e x →
        u.zones.get z = some (takenLate p.lateLimit (new.second - e.due) e x)))) ∧
  (∀ (s u : State) (new : CivilTime), s.resetHeld = false → new = s.time.civil → u = s.validatingEvent →
    statusSet u .time ∧
    u = { s with time := { s.time with shifts := u.time.shifts }, cal := u.cal, dispatch := u.dispatch, store := u.store, attn := u.attn } ∧
    u.cal.today = some new.day ∧ u.cal.overrides = (s.rolloverCalendar new.day).cal.overrides ∧
    u.store = (s.rolloverCalendar new.day).store ∧
    (∀ (v : Nat) (x : Division), (s.rolloverCalendar new.day).cal.divisions[v]? = some x →
      u.cal.divisions[v]? = some { x with missed := 0, suppressed := 0, mark := .at new.second } ∧
      u.dispatch[v]? = some { plan := x.todayPlan, cycle := x.todayCycle }))

/-- R10: TIME REFERENCE: the label, its second clamped to 86 399, becomes the pending label, replacing one already held, whatever the reference
state and the validity; the reply is OK, or CLAMPED after the clamp, with a snapshot. The next pulse that is taken uses it and discards it,
and so does SET TIME. -/
def Obligations.TimeReferenceWaitsForAPulse : Prop :=
  ∀ (day : Day) (second : Nat) (s : State), s.resetHeld = false →
    exec (.timeReference day second) s = .next (answered
      { s with time := { s.time with pendingLabel := some { day := day, second := min 86399 second } } } 17
      (if 86399 < second then .clamped else .ok)
      (.snapshot ({ s.time with pendingLabel := some { day := day, second := min 86399 second } } : TimeBase).snapshot)) ∧
    (∀ t u, exec (.timeReference day second) s = .next t → 8 ≤ s.time.pulseAge → exec .refPulse t = .next u →
      u.time.lastLabel = some { day := day, second := min 86399 second } ∧ u.time.pendingLabel = none) ∧
    (∀ t u d n o, exec (.timeReference day second) s = .next t → exec (.setTime d n o) t = .next u → u.time.pendingLabel = none)

/-- R14: AMEND and RETIRE of the SHIFT table: the refusals in their order, the clamps, and the record inserted or replaced, or retired, with
every other day's record and everything else as it was. -/
def Obligations.ShiftTableRequests : Prop :=
  ∀ (d : Day) (f : ShiftFields) (s : State), s.resetHeld = false →
    (s.time.valid = false → exec (.amendShift d f) s = .next (answered s 2 .timeInvalid (.key (.shift d)))) ∧
    (s.time.valid = true → f.shift = 0 ∨ isBefore d s.today = true ∨ (d = s.today ∧ min 1439 f.minute * 60 ≤ s.time.civil.second) →
      exec (.amendShift d f) s = .next (answered s 2 .range (.key (.shift d)))) ∧
    (s.time.valid = true → f.shift ≠ 0 → isBefore d s.today = false → (d = s.today → s.time.civil.second < min 1439 f.minute * 60) →
      ((∀ r ∈ s.time.shifts, r.day ≠ d) → 4 ≤ s.time.shifts.length →
        exec (.amendShift d f) s = .next (answered s 2 .full (.key (.shift d)))) ∧
      ((∃ r ∈ s.time.shifts, r.day = d) ∨ s.time.shifts.length < 4 → ∃ shifts,
        exec (.amendShift d f) s = .next (answered { s with time := { s.time with shifts := shifts } } 2
          (if 1439 < f.minute ∨ f.shift < -120 ∨ 120 < f.shift then .clamped else .ok)
          (.record (.shift d) (.shift (min 1439 f.minute) (max (-120) (min 120 f.shift))))) ∧
        (∀ r, r ∈ shifts ↔
          r = { day := d, minute := min 1439 f.minute, shift := max (-120) (min 120 f.shift) } ∨ (r ∈ s.time.shifts ∧ r.day ≠ d)))) ∧
    ((∀ r ∈ s.time.shifts, r.day ≠ d) → exec (.retireShift d) s = .next (answered s 3 .notFound (.key (.shift d)))) ∧
    ((∃ r ∈ s.time.shifts, r.day = d) →
      exec (.retireShift d) s = .next (answered
        { s with time := { s.time with shifts := s.time.shifts.filter (fun r => r.day != d) } } 3 .ok (.key (.shift d))))

/-! ### The record requests that read (R166) -/

/-- R166 with R14, R18, R23, R34, R38, R44, R86, R94, R122, R133, R136, R142, R161: LOOKUP of each of the thirteen tables. A structural field
of the key above its range is refused with RANGE, a key with no record with NOT_FOUND, and otherwise the reply carries the key and the
record as it stands with the fields that the chapter adds; nothing but the reply changes.
RANGE for a plan, an override and a call key is inferred from 3.7 of the scope (log 10). -/
def Obligations.LookupsAnswer : Prop :=
  ∀ s : State, s.resetHeld = false →
    (∀ n, exec (.lookupPlan n) s = .next (if 15 < n then answered s 1 .range (.key (.plan n)) else match s.store.plans.get n with
      | some p => answered s 1 .ok (.record (.plan n) (.plan p (some (s.time.valid && todayPlanOf s p.division == some n))))
      | none => answered s 1 .notFound (.key (.plan n)))) ∧
    (∀ p g, exec (.lookupEntry p g) s = .next (if 15 < p then answered s 1 .range (.key (.entry p g)) else match entryAt s p g with
      | some e => answered s 1 .ok (.record (.entry p g) (.entry e (e.minute * 60 + e.second)))
      | none => answered s 1 .notFound (.key (.entry p g)))) ∧
    (∀ v d, exec (.lookupOverride v d) s = .next (if 3 < v then answered s 1 .range (.key (.override v d)) else match overrideAt s v d with
      | some o => answered s 1 .ok (.record (.override v d) (.override o.kind))
      | none => answered s 1 .notFound (.key (.override v d)))) ∧
    (∀ d, exec (.lookupShift d) s = .next (match s.time.shifts.find? (fun r => r.day == d) with
      | some r => answered s 1 .ok (.record (.shift d) (.shift r.minute r.shift))
      | none => answered s 1 .notFound (.key (.shift d)))) ∧
    (∀ n, exec (.lookupPattern n) s = .next (if 15 < n then answered s 1 .range (.key (.pattern n))
      else match s.store.patterns.get n with
      | some p => answered s 1 .ok (.record (.pattern n) (.pattern p (some (p.steps.map (fun x => x.on + x.off)).sum)))
      | none => answered s 1 .notFound (.key (.pattern n)))) ∧
    (∀ z, exec (.lookupZone z) s = .next (if 63 < z then answered s 1 .range (.key (.zone z)) else match s.zones.get z with
      | some x => answered s 1 .ok (.record (.zone z) (.zone x.config (some (x, voiceLive s x, deliveredOf s z x))))
      | none => answered s 1 .notFound (.key (.zone z)))) ∧
    (∀ b, exec (.lookupBuilding b) s = .next (match s.link.buildings[b]? with
      | some x => answered s 1 .ok (.record (.building b)
          (.building x ((s.zoneCounts[b]?).getD 0) s.link.straps.rate s.link.straps.units.val))
      | none => answered s 1 .range (.key (.building b)))) ∧
    (∀ n, exec (.lookupLine n) s = .next (match s.lines[n]? with
      | some l => answered s 1 .ok (.record (.line n) (.line l (if l.state.running && s.time.valid then
          some (s.time.civil.second / 60 % 720, dialDistance (s.time.civil.second / 60 % 720) l.effective) else none)))
      | none => answered s 1 .range (.key (.line n)))) ∧
    (∀ n, exec (.lookupProgram n) s = .next (if 7 < n then answered s 1 .range (.key (.program n))
      else match s.modes.programs.get n with
      | some p => answered s 1 .ok (.record (.program n) (.program p (match s.modes.record with
          | some r => if r.program = some n then some (r, (s.time.counter - r.startSecond).toNat) else none
          | none => none)))
      | none => answered s 1 .notFound (.key (.program n)))) ∧
    (∀ v, exec (.lookupDivision v) s = .next (match s.cal.divisions[v]? with
      | some x => answered s 1 .ok (.record (.division v)
          (.division x (s.cal.today.map (fun d => (d.toNat + s.cal.site.epochWeekday) % 7))))
      | none => answered s 1 .range (.key (.division v)))) ∧
    exec .lookupSite s = .next (answered s 1 .ok (.record .site (.site s.cal.site))) ∧
    (∀ n, exec (.lookupAnnouncement n) s = .next (if 15 < n then answered s 1 .range (.key (.announcement n))
      else match s.arb.slots.get n with
      | some a => answered s 1 .ok (.record (.announcement n)
          (.announcement a (if a.live then some (s.arb.arrival.idxOf n) else none) (match a.state with
            | .waiting => .waiting ((waitingQueue s).idxOf n) (a.waitLimit - (s.time.counter - a.arrivalSecond).toNat)
            | .active _ => .active (elapsedSince s (a.startSecond.getD s.time.counter))
                (a.maxDuration.map (· - elapsedSince s (a.startSecond.getD s.time.counter))) (voiceLiveSet s a.held)
            | .ended .. => .ended)))
      | none => answered s 1 .notFound (.key (.announcement n)))) ∧
    (∀ z, exec (.lookupCall z) s = .next (if 63 < z then answered s 1 .range (.key (.call z)) else match callOf s z with
      | some c => answered s 1 .ok (.record (.call z) (.call c (s.calls.calls.idxOf c) (answering s c.zone)))
      | none => answered s 1 .notFound (.key (.call z))))

/-- R166 with R14, R23, R36, R38, R44, R86, R94, R122, R133, R142, R161: NEXT of each of the twelve tables that take it, from the start and
given a key: a key whose structural field is above its range is refused with RANGE; otherwise the reply carries the record that follows in
the table's order, with its key and what LOOKUP of it would return, or NOT_FOUND when none follows; nothing but the reply changes.
RANGE for a plan, an override and a call key, and NOT_FOUND for an announcement above 15, are inferred (log 10); that the reply of a refused
NEXT carries its start byte with the key is the model's choice (log 9). -/
def Obligations.NextsAnswer : Prop :=
  ∀ s : State, s.resetHeld = false → s.Lawful →
    (∀ n, NextTaken s (Instr.nextPlan · n) (15 < n) (.plan n) (FollowsIn s.store.plans n .plan (planView s))) ∧
    (∀ n, NextTaken s (Instr.nextPattern · n) (15 < n) (.pattern n) (FollowsIn s.store.patterns n .pattern (fun _ => patternView))) ∧
    (∀ n, NextTaken s (Instr.nextZone · n) (63 < n) (.zone n) (FollowsIn s.zones n .zone (zoneView s))) ∧
    (∀ n, NextTaken s (Instr.nextProgram · n) (7 < n) (.program n) (FollowsIn s.modes.programs n .program (programView s))) ∧
    (∀ n, NextTaken s (Instr.nextAnnouncement · n) False (.announcement n)
      (FollowsIn s.arb.slots n .announcement (announcementView s))) ∧
    (∀ n, NextTaken s (Instr.nextBuilding · n) (7 < n) (.building n) (fun start k v => ∃ b : Nat, (start = .given → b = n + 1) ∧
      (start = .fromStart → b = 0) ∧ k = .building b ∧ buildingView s b = some v)) ∧
    (∀ n, NextTaken s (Instr.nextDivision · n) (3 < n) (.division n) (fun start k v => ∃ b : Nat, (start = .given → b = n + 1) ∧
      (start = .fromStart → b = 0) ∧ k = .division b ∧ divisionView s b = some v)) ∧
    (∀ n, NextTaken s (Instr.nextLine · n) (11 < n) (.line n) (fun start k v => ∃ b : Nat, ∃ l : Line, (start = .given → b = n + 1) ∧
      (start = .fromStart → b = 0) ∧ k = .line b ∧ s.lines[b]? = some l ∧ v = lineView s l)) ∧
    (∀ d, NextTaken s (Instr.nextShift · d) False (.shift d) (fun start k v => ∃ r ∈ s.time.shifts, k = .shift r.day ∧
      v = .shift r.minute r.shift ∧ (start = .given → forwardDistance s.today d < forwardDistance s.today r.day) ∧
      ∀ q ∈ s.time.shifts, (start = .given → forwardDistance s.today d < forwardDistance s.today q.day) →
        forwardDistance s.today r.day ≤ forwardDistance s.today q.day)) ∧
    (∀ v d, NextTaken s (Instr.nextOverride · v d) (3 < v) (.override v d) (fun start k w => ∃ o ∈ s.cal.overrides,
      k = .override o.division o.day ∧ w = .override o.kind ∧ (start = .given → overrideBefore s (v, d) (o.division, o.day)) ∧
      ∀ q ∈ s.cal.overrides, (start = .given → overrideBefore s (v, d) (q.division, q.day)) → q ≠ o →
        overrideBefore s (o.division, o.day) (q.division, q.day))) ∧
    (∀ z, NextTaken s (Instr.nextCall · z) (63 < z) (.call z) (fun start k v => ∃ front back c, k = .call c.zone ∧ v = callView s c ∧
      s.calls.calls = front ++ c :: back ∧ (start = .fromStart → front = []) ∧
      (start = .given → ∃ before c0, front = before ++ [c0] ∧ c0.zone = z))) ∧
    (∀ p g, NextTaken s (Instr.nextEntry · p g) (15 < p) (.entry p g) (fun start k v => ∃ e ∈ s.store.entries,
      k = .entry e.plan e.tag ∧ v = entryView e ∧
      (start = .given → ∃ x, entryAt s p g = some x ∧ entryBefore x e) ∧
      ∀ q ∈ s.store.entries, (start = .given → ∃ x, entryAt s p g = some x ∧ entryBefore x q) → q = e ∨ entryBefore e q)) ∧
    (∀ p g, p ≤ 15 → ∀ e ∈ s.store.entries, p ≤ e.plan → (∀ q ∈ s.store.entries, p ≤ q.plan → q = e ∨ entryBefore e q) →
      exec (.nextEntry .fromPlan p g) s = .next (answered s 4 .ok (.record (.entry e.plan e.tag) (entryView e)))) ∧
    (∀ p g, p ≤ 15 → (∀ q ∈ s.store.entries, q.plan < p) →
      exec (.nextEntry .fromPlan p g) s = .next (answered s 4 .notFound (.nextKey .fromPlan (.entry p g)))) ∧
    (∀ p g, 15 < p → exec (.nextEntry .fromPlan p g) s = .next (answered s 4 .range (.nextKey .fromPlan (.entry p g))))

/-! ### Calendar -/

/-- R18, R24, R25, R26, R27, R29, R31: how days are resolved and counted. The plan of a division for a day is the override's, or else the
weekday map's, when it is held and owned by the division. A rollover sets today, resolves and counts each division, and retires the overrides
and shift records of the day left and the entries whose valid-until day has passed. A backward-rollover sets today and resolves each division
without counting the day, retires the overrides and shift records that now lie behind and no entry, and its notice sets the mark to the day's
end and clears the two counts. A re-resolution decides today again and adjusts the count by the table of R31; the Dispatcher's copy follows
outside reset. -/
def Obligations.DaysAreResolvedAndCounted : Prop :=
  (∀ (s : State) (v : Nat) (d : Day) (x : Division) (named : Option Nat), s.cal.divisions[v]? = some x →
    named = (match overrideAt s v d with
      | some o => (match o.kind with
        | .plan p => some p
        | .planSet p _ => some p
        | .noSchool => none)
      | none => (x.map[(d.toNat + s.cal.site.epochWeekday) % 7]?).getD none) →
    (∀ n p, named = some n → s.store.plans.get n = some p → p.division = v →
      resolvePlan s v d = { plan := some n, schoolDay := p.schoolDay, unresolved := false }) ∧
    (∀ n, named = some n → (∀ p, s.store.plans.get n = some p → p.division ≠ v) →
      resolvePlan s v d = { plan := none, schoolDay := false, unresolved := true }) ∧
    (named = none → resolvePlan s v d = { plan := none, schoolDay := false, unresolved := false })) ∧
  (∀ (s : State) (d : Day),
    (s.rolloverCalendar d).cal.today = some d ∧
    (s.rolloverCalendar d).cal.overrides = s.cal.overrides.filter (fun o => o.day != d - 1) ∧
    (s.rolloverCalendar d).time.shifts = s.time.shifts.filter (fun r => r.day != d - 1) ∧
    (∀ e, e ∈ (s.rolloverCalendar d).store.entries ↔ e ∈ s.store.entries ∧ ∀ u, e.validUntil = some u → isBefore u d = false) ∧
    (∀ (v : Nat) (x : Division), s.cal.divisions[v]? = some x → ∃ y : Division, (s.rolloverCalendar d).cal.divisions[v]? = some y ∧
      y.todayPlan = (resolvePlan s v d).plan ∧ y.schoolDay = (resolvePlan s v d).schoolDay ∧
      (y.schoolDay = false → y.todayCycle = none ∧ y.lastCycle = x.lastCycle ∧ y.previousCycle = x.previousCycle ∧
        y.lastCounted = x.lastCounted) ∧
      (y.schoolDay = true → x.lastCounted ≠ some d → y.previousCycle = x.lastCycle ∧ y.lastCounted = some d ∧
        y.lastCycle = y.todayCycle ∧ y.todayCycle = some (match cycleSetAt s v d, x.lastCycle with
          | some n, _ => n
          | none, some c => (c + 1) % x.cycleLength
          | none, none => 0)) ∧
      (y.schoolDay = true → x.lastCounted = some d → y.previousCycle = x.previousCycle ∧ y.lastCounted = some d ∧
        match cycleSetAt s v d with
        | some n => y.todayCycle = some n ∧ y.lastCycle = some n
        | none => y.todayCycle = some (x.lastCycle.getD 0) ∧ y.lastCycle = x.lastCycle) ∧
      y.map = x.map ∧ y.cycleLength = x.cycleLength ∧ y.missed = x.missed ∧ y.suppressed = x.suppressed ∧ y.mark = x.mark)) ∧
  (∀ (s u : State) (d : Day), u = s.backwardRollover d →
    u.cal.today = some d ∧ u.cal.overrides = s.cal.overrides.filter (fun o => decide ((o.day - d).toNat < 32768)) ∧
    u.time = { s.time with shifts := s.time.shifts.filter (fun r => decide ((r.day - d).toNat < 32768)) } ∧
    u = { s with time := u.time, dispatch := u.dispatch, attn := u.attn
                 cal := { s.cal with today := some d, divisions := u.cal.divisions, overrides := u.cal.overrides } } ∧
    (s.resetHeld = false → statusSet u .calendar) ∧
    (∀ (v : Nat) (x : Division), s.cal.divisions[v]? = some x → ∃ y : Division, u.cal.divisions[v]? = some y ∧
      y = { x with
        todayPlan := (resolvePlan s v d).plan, schoolDay := (resolvePlan s v d).schoolDay
        todayCycle := if (resolvePlan s v d).schoolDay then some (match cycleSetAt s v d with
          | some n => n
          | none => x.lastCycle.getD 0) else none
        mark := if s.resetHeld then x.mark else .at 86399
        missed := if s.resetHeld then x.missed else 0, suppressed := if s.resetHeld then x.suppressed else 0 } ∧
      u.dispatch[v]? = if s.resetHeld then s.dispatch[v]? else some { plan := y.todayPlan, cycle := y.todayCycle })) ∧
  (∀ (s : State) (v : Nat) (d : Day) (x : Division), s.cal.today = some d → s.cal.divisions[v]? = some x →
    ∃ y : Division, (s.reResolveDivision v).cal.divisions[v]? = some y ∧
      y.todayPlan = (resolvePlan s v d).plan ∧ y.schoolDay = (resolvePlan s v d).schoolDay ∧
      (x.lastCounted = some d → y.schoolDay = false → y.lastCycle = x.previousCycle ∧ y.lastCounted = none ∧ y.todayCycle = none) ∧
      (x.lastCounted = some d → y.schoolDay = true → y.lastCounted = some d ∧ y.previousCycle = x.previousCycle ∧
        match cycleSetAt s v d with
        | some n => y.todayCycle = some n ∧ y.lastCycle = some n
        | none => y.todayCycle = some (x.todayCycle.getD (x.lastCycle.getD 0)) ∧ y.lastCycle = x.lastCycle) ∧
      (x.lastCounted ≠ some d → y.schoolDay = true → y.previousCycle = x.lastCycle ∧ y.lastCounted = some d ∧
        y.lastCycle = y.todayCycle ∧ y.todayCycle = some (match cycleSetAt s v d, x.lastCycle with
          | some n, _ => n
          | none, some c => (c + 1) % x.cycleLength
          | none, none => 0)) ∧
      (x.lastCounted ≠ some d → y.schoolDay = false → y.todayCycle = none ∧ y.lastCycle = x.lastCycle ∧
        y.previousCycle = x.previousCycle ∧ y.lastCounted = x.lastCounted) ∧
      y.mark = x.mark ∧ y.missed = x.missed ∧ y.suppressed = x.suppressed ∧
      (v < 4 → (s.reResolveDivision v).dispatch[v]? = if s.resetHeld then s.dispatch[v]?
        else some { plan := y.todayPlan, cycle := y.todayCycle }) ∧
      (s.resetHeld = false → (resolvePlan s v d).unresolved = true ∨ y.todayPlan ≠ x.todayPlan ∨ y.todayCycle ≠ x.todayCycle →
        statusSet (s.reResolveDivision v) .calendar))

/-- R21, R22, R23: AMEND and RETIRE of the OVERRIDE table: the refusals in their order, the clamp of a SET day, the override inserted,
replaced or retired with every other key's as it was, and today re-resolved for the division when the day is today. -/
def Obligations.OverrideTableRequests : Prop :=
  ∀ (v : Nat) (d : Day) (f : OverrideFields) (s : State), s.resetHeld = false →
    (s.time.valid = false → exec (.amendOverride v d f) s = .next (answered s 2 .timeInvalid (.key (.override v d)))) ∧
    (s.time.valid = true → 3 < v ∨ 32768 ≤ (d - s.today).toNat ∨ (∃ code, f = .other code) ∨ (∃ p, f = .plan p ∧ 15 < p) ∨
        (∃ p n, f = .planSet p n ∧ (15 < p ∨ 7 < n)) →
      exec (.amendOverride v d f) s = .next (answered s 2 .range (.key (.override v d)))) ∧
    (∀ (x : Division) (k stored : OverrideKind), s.time.valid = true → s.cal.divisions[v]? = some x → (d - s.today).toNat < 32768 →
      ((∃ p, f = .plan p ∧ p ≤ 15 ∧ k = .plan p ∧ stored = .plan p) ∨ (f = .noSchool ∧ k = .noSchool ∧ stored = .noSchool) ∨
        (∃ p n, f = .planSet p n ∧ p ≤ 15 ∧ n ≤ 7 ∧ k = .planSet p n ∧ stored = .planSet p (min (x.cycleLength - 1) n))) →
      (overrideAt s v d = none → 128 ≤ s.cal.overrides.length →
        exec (.amendOverride v d f) s = .next (answered s 2 .full (.key (.override v d)))) ∧
      (overrideAt s v d ≠ none ∨ s.cal.overrides.length < 128 → ∃ u : State,
        (∀ o, o ∈ u.cal.overrides ↔ o = { division := v, day := d, kind := stored } ∨
          (o ∈ s.cal.overrides ∧ ¬ (o.division = v ∧ o.day = d))) ∧
        u = { s with cal := { s.cal with overrides := u.cal.overrides } } ∧
        exec (.amendOverride v d f) s = .next (answered (if s.cal.today = some d then u.reResolveDivision v else u) 2
          (if stored = k then .ok else .clamped) (.record (.override v d) (.override stored))))) ∧
    (3 < v → exec (.retireOverride v d) s = .next (answered s 3 .range (.key (.override v d)))) ∧
    (v ≤ 3 → overrideAt s v d = none → exec (.retireOverride v d) s = .next (answered s 3 .notFound (.key (.override v d)))) ∧
    (∀ u : State, v ≤ 3 → overrideAt s v d ≠ none →
      u = { s with cal := { s.cal with overrides := s.cal.overrides.filter (fun o => !(o.division == v && o.day == d)) } } →
      exec (.retireOverride v d) s = .next (answered
        (if s.time.valid = true ∧ s.cal.today = some d then u.reResolveDivision v else u) 3 .ok (.key (.override v d))))

/-- R19, R20, R27, R136: AMEND of the DIVISION and SITE tables: the refusals, the clamps and the stored record. A changed cycle length clamps the
stored cycle days and the SET days of the division's overrides. While time is valid a changed map entry for today then re-resolves today
for the division; else, where the clamp has moved today's cycle day, the Dispatcher is given it with today's plan; else, and while time is
invalid, nothing more changes. A changed epoch weekday re-resolves today for all four while time is valid. The reply to AMEND of a division
has the record as it then stands. (What a re-resolution does is in DaysAreResolvedAndCounted.) -/
def Obligations.DivisionAndSiteAmendments : Prop :=
  ∀ (v : Nat) (f : DivisionFields) (g : SiteFields) (s : State), s.resetHeld = false →
    (3 < v ∨ (∃ n, some n ∈ f.map.toList ∧ 15 < n) →
      exec (.amendDivision v f) s = .next (answered s 2 .range (.key (.division v)))) ∧
    (∀ (x base : Division) (length : Nat), s.cal.divisions[v]? = some x → (∀ n, some n ∈ f.map.toList → n ≤ 15) →
      length = max 1 (min 8 f.cycleLength) →
      base = (if length = x.cycleLength then { x with map := f.map } else { x with
        map := f.map, cycleLength := length, lastCycle := x.lastCycle.map (min (length - 1))
        previousCycle := x.previousCycle.map (min (length - 1)), todayCycle := x.todayCycle.map (min (length - 1)) }) →
      ∃ u : State, u = { s with cal := { s.cal with divisions := u.cal.divisions, overrides := u.cal.overrides } } ∧
        u.cal.divisions[v]? = some base ∧ (∀ w : Nat, w ≠ v → u.cal.divisions[w]? = s.cal.divisions[w]?) ∧
        u.cal.overrides = (if length = x.cycleLength then s.cal.overrides else s.cal.overrides.map (fun o =>
          if o.division = v then { o with kind := match o.kind with
            | .planSet p n => .planSet p (min (length - 1) n)
            | k => k } else o)) ∧
        (let changed : Prop := s.time.valid = true ∧ ∃ d, s.cal.today = some d ∧
          f.map[(d.toNat + s.cal.site.epochWeekday) % 7]? ≠ x.map[(d.toNat + s.cal.site.epochWeekday) % 7]?
        let replies (t : State) (y : Division) : Prop := exec (.amendDivision v f) s = .next (answered t 2
          (if f.cycleLength < 1 ∨ 8 < f.cycleLength then .clamped else .ok) (.record (.division v) (.divisionAmended y)))
        (changed → ∃ y : Division, (u.reResolveDivision v).cal.divisions[v]? = some y ∧ replies (u.reResolveDivision v) y) ∧
        (¬ changed → s.time.valid = false ∨ base.todayCycle = x.todayCycle → replies u base) ∧
        (¬ changed → s.time.valid = true → base.todayCycle ≠ x.todayCycle → ∃ copies,
          replies { u with dispatch := copies } base ∧ copies[v]? = some { plan := x.todayPlan, cycle := base.todayCycle } ∧
          ∀ w : Nat, w ≠ v → copies[w]? = s.dispatch[w]?))) ∧
    (7 < g.alarmProgram → exec (.amendSite g) s = .next (answered s 2 .range (.key .site))) ∧
    (∀ (site : Site) (u : State), g.alarmProgram ≤ 7 →
      site = { epochWeekday := min 6 g.epochWeekday, keyEnable := g.keyEnable, clearWindows := max 2 (min 30 g.clearWindows)
               alarmProgram := g.alarmProgram } →
      u = { s with cal := { s.cal with site := site } } →
      exec (.amendSite g) s = .next (answered
        (if s.time.valid = true ∧ site.epochWeekday ≠ s.cal.site.epochWeekday then [0, 1, 2, 3].foldl State.reResolveDivision u else u) 2
        (if 6 < g.epochWeekday ∨ g.clearWindows < 2 ∨ 30 < g.clearWindows then .clamped else .ok) (.record .site (.site site))))

/-! ### Plans, entries and patterns -/

/-- R30, R35, R36: AMEND and RETIRE of the PLAN table: the refusals in their order, the late limit clamped to 5, the plan stored with its entry
count kept, or retired; and then, while time is valid, today re-resolved, division by division, for those that the change bears on and for no
other: at an AMEND, the owner of a plan that is its today's plan and changes its owner or its school-day flag, and each division whose today's
resolution names the plan without having it as today's plan; at a RETIRE, the second alone. (What a re-resolution does, R31's cycle day, count
and CALENDAR event included, is in DaysAreResolvedAndCounted.) -/
def Obligations.PlanTableRequests : Prop :=
  ∀ (n : Nat) (f : PlanFields) (s : State), s.resetHeld = false →
    let named (v : Nat) : Prop := s.time.valid = true ∧ ∃ (x : Division) (d : Day), s.cal.divisions[v]? = some x ∧ s.cal.today = some d ∧
      planNamedFor s v d = some n ∧ x.todayPlan ≠ some n
    let changed (v : Nat) : Prop := s.time.valid = true ∧ ∃ (x : Division) (d : Day) (p : Plan), s.cal.divisions[v]? = some x ∧
      s.cal.today = some d ∧ s.store.plans.get n = some p ∧ p.division = v ∧ x.todayPlan = some n ∧
      (p.division ≠ f.division ∨ p.schoolDay ≠ f.schoolDay)
    let taken (u t : State) (touched : Nat → Prop) : Prop := ∃ l : List Nat, l.Pairwise (· < ·) ∧ (∀ v, v ∈ l ↔ touched v) ∧
      t = l.foldl State.reResolveDivision u ∧
      t = { u with cal := { u.cal with divisions := t.cal.divisions }, dispatch := t.dispatch, attn := t.attn } ∧
      ∀ v : Nat, ¬ touched v → t.cal.divisions[v]? = s.cal.divisions[v]? ∧ t.dispatch[v]? = s.dispatch[v]?
    (15 < n ∨ 3 < f.division → exec (.amendPlan n f) s = .next (answered s 2 .range (.key (.plan n)))) ∧
    (∀ p, n ≤ 15 → f.division ≤ 3 → s.store.plans.get n = some p → 0 < p.entryCount → p.division ≠ f.division →
      exec (.amendPlan n f) s = .next (answered s 2 .inUse (.key (.plan n)))) ∧
    (∀ q : Plan, n ≤ 15 → f.division ≤ 3 → (∀ p, s.store.plans.get n = some p → p.entryCount = 0 ∨ p.division = f.division) →
      q = { division := f.division, tag := f.tag, schoolDay := f.schoolDay, lateLimit := min 5 f.lateLimit
            entryCount := match s.store.plans.get n with
              | some p => p.entryCount
              | none => 0 } →
      ∃ u t : State, u = { s with store := { s.store with plans := u.store.plans } } ∧ u.store.plans.get n = some q ∧
        (∀ k, k ≠ n → u.store.plans.get k = s.store.plans.get k) ∧ taken u t (fun v => changed v ∨ named v) ∧
        exec (.amendPlan n f) s = .next (answered t 2 (if 5 < f.lateLimit then .clamped else .ok) (.record (.plan n) (.plan q none)))) ∧
    (15 < n → exec (.retirePlan n) s = .next (answered s 3 .range (.key (.plan n)))) ∧
    (n ≤ 15 → s.store.plans.get n = none → exec (.retirePlan n) s = .next (answered s 3 .notFound (.key (.plan n)))) ∧
    (∀ p, n ≤ 15 → s.store.plans.get n = some p → todayPlanOf s p.division = some n ∨ 0 < p.entryCount →
      exec (.retirePlan n) s = .next (answered s 3 .inUse (.key (.plan n)))) ∧
    (∀ (p : Plan) (u : State), n ≤ 15 → s.store.plans.get n = some p → todayPlanOf s p.division ≠ some n → p.entryCount = 0 →
      u = { s with store := { s.store with plans := s.store.plans.filter (fun e => e.1 != n) } } →
      ∃ t, taken u t named ∧ exec (.retirePlan n) s = .next (answered t 3 .ok (.key (.plan n))))

/-- R37 to R41, R48: AMEND and RETIRE of the ENTRY table: the refusals in the order of R39, the clamps, the entry stored under its key or
retired with every other key's entry as it was, and the plan's entry count and the patterns' reference counts that follow. -/
def Obligations.EntryTableRequests : Prop :=
  ∀ (plan tag : Nat) (f : EntryFields) (s : State), s.resetHeld = false →
    let reply (r : ResultCode) : Prop := exec (.amendEntry plan tag f) s = .next (answered s 2 r (.key (.entry plan tag)))
    (15 < plan ∨ 255 < tag ∨ 2 < f.action ∨ (f.action = 0 ∧ 15 < f.pattern) → reply .range) ∧
    (plan ≤ 15 → tag ≤ 255 → f.action ≤ 2 → (f.action = 0 → f.pattern ≤ 15) →
      (s.store.plans.get plan = none ∨ (f.action = 0 ∧ s.store.patterns.get f.pattern = none) → reply .notFound) ∧
      (∀ p, s.store.plans.get plan = some p → (f.action = 0 → s.store.patterns.get f.pattern ≠ none) →
        (f.zones = 0 ∨ (∃ z, mem f.zones z = true ∧ ∀ x, s.zones.get z = some x → x.config.division ≠ p.division) → reply .range) ∧
        (f.zones ≠ 0 → (∀ z, mem f.zones z = true → ∃ x, s.zones.get z = some x ∧ x.config.division = p.division) →
          ((s.time.valid = true ∧ ∃ u, f.validUntil = some u ∧ isBefore u s.today = true) ∨
              (∃ a u, f.validFrom = some a ∧ f.validUntil = some u ∧ 32768 ≤ (u - a).toNat) → reply .range) ∧
          ((s.time.valid = true → ∀ u, f.validUntil = some u → isBefore u s.today = false) →
            (∀ a u, f.validFrom = some a → f.validUntil = some u → (u - a).toNat < 32768) →
            let conflict : Prop := ∃ x ∈ s.store.entries, x.plan = plan ∧ x.tag ≠ tag ∧
              x.due = min 2047 f.minute * 60 + min 59 f.second ∧ x.zones &&& f.zones ≠ 0
            let full : Prop := entryAt s plan tag = none ∧
              (128 ≤ (s.store.entries.filter (fun e => e.plan == plan)).length ∨ 512 ≤ s.store.entries.length)
            (conflict → reply .conflict) ∧ (¬ conflict → full → reply .full) ∧
            (∀ e : Entry, ¬ conflict → ¬ full → e.plan = plan → e.tag = tag → e.minute = min 2047 f.minute →
              e.second = min 59 f.second → e.mask = f.mask → e.zones = f.zones → e.validFrom = f.validFrom →
              e.validUntil = f.validUntil →
              (f.action = 0 → e.action = .bell f.pattern (max 1 (min 30 f.duration)) f.holdable (min 120 f.deferLimit)) →
              (f.action = 1 → e.action = .auxOn) → (f.action = 2 → e.action = .auxOff) →
              ∃ u : State,
                exec (.amendEntry plan tag f) s = .next (answered u 2
                  (if 2047 < f.minute ∨ 59 < f.second ∨
                      (f.action = 0 ∧ (f.duration < 1 ∨ 30 < f.duration ∨ 120 < f.deferLimit)) then .clamped else .ok)
                  (.record (.entry plan tag) (.entry e (e.minute * 60 + e.second)))) ∧
                entryAt u plan tag = some e ∧
                (∀ a b, ¬ (a = plan ∧ b = tag) → entryAt u a b = entryAt s a b) ∧
                (∀ k, u.store.plans.get k = if k = plan ∧ entryAt s plan tag = none
                  then some { p with entryCount := p.entryCount + 1 } else s.store.plans.get k) ∧
                (∀ k y, s.store.patterns.get k = some y → u.store.patterns.get k = some { y with refs :=
                  y.refs - (if ∃ x, entryAt s plan tag = some x ∧ x.patternNamed = some k then 1 else 0)
                    + (if e.patternNamed = some k then 1 else 0) }) ∧
                u = { s with store := u.store }))))) ∧
    (15 < plan ∨ 255 < tag → exec (.retireEntry plan tag) s = .next (answered s 3 .range (.key (.entry plan tag)))) ∧
    (plan ≤ 15 → tag ≤ 255 → entryAt s plan tag = none →
      exec (.retireEntry plan tag) s = .next (answered s 3 .notFound (.key (.entry plan tag)))) ∧
    (∀ e, plan ≤ 15 → tag ≤ 255 → entryAt s plan tag = some e → ∃ u : State,
      exec (.retireEntry plan tag) s = .next (answered u 3 .ok (.key (.entry plan tag))) ∧ entryAt u plan tag = none ∧
      (∀ a b, ¬ (a = plan ∧ b = tag) → entryAt u a b = entryAt s a b) ∧
      (∀ k p, s.store.plans.get k = some p → u.store.plans.get k = some
        { p with entryCount := if k = plan then p.entryCount - 1 else p.entryCount }) ∧
      (∀ k y, s.store.patterns.get k = some y → u.store.patterns.get k = some
        { y with refs := if e.patternNamed = some k then y.refs - 1 else y.refs }) ∧
      u = { s with store := u.store })

/-- R44, R45, R46, R160: AMEND and RETIRE of the PATTERN table: the refusals in their order, the clamped steps stored with the reference count
kept, the number pending to every present building and its copy in flight marked as amended; a retirement hands nothing to the link. -/
def Obligations.PatternTableRequests : Prop :=
  ∀ (n : Nat) (steps stored : List PatternStep) (s : State), s.resetHeld = false →
    (15 < n ∨ steps = [] ∨ 6 < steps.length → exec (.amendPattern n steps) s = .next (answered s 2 .range (.key (.pattern n)))) ∧
    (n ≤ 15 → steps ≠ [] → steps.length ≤ 6 →
      stored = steps.map (fun x => { on := max 1 (min 32 x.on), off := min 32 x.off }) → ∃ u : State,
        let p : Pattern := { steps := stored, refs := match s.store.patterns.get n with
          | some q => q.refs
          | none => 0 }
        exec (.amendPattern n steps) s = .next (answered u 2 (if stored = steps then .ok else .clamped)
          (.record (.pattern n) (.pattern p none))) ∧
        u.store.patterns.get n = some p ∧
        (∀ k, k ≠ n → u.store.patterns.get k = s.store.patterns.get k) ∧
        (∀ (b : Nat) (x : Building), s.link.buildings[b]? = some x → ∃ y : Building, u.link.buildings[b]? = some y ∧
          (x.present = false → y = x) ∧
          (x.present = true → (∀ k, mem y.pending k = (mem x.pending k || decide (k = n))) ∧
            y = { x with pending := y.pending, inFlight := x.inFlight.map (fun g =>
              if g.pattern = n then { g with amended := true } else g) })) ∧
        u = { s with store := { s.store with patterns := u.store.patterns }, link := { s.link with buildings := u.link.buildings } }) ∧
    (15 < n → exec (.retirePattern n) s = .next (answered s 3 .range (.key (.pattern n)))) ∧
    (n = 0 → exec (.retirePattern n) s = .next (answered s 3 .inUse (.key (.pattern n)))) ∧
    (1 ≤ n → n ≤ 15 → s.store.patterns.get n = none → exec (.retirePattern n) s = .next (answered s 3 .notFound (.key (.pattern n)))) ∧
    (∀ p, 1 ≤ n → n ≤ 15 → s.store.patterns.get n = some p → 0 < p.refs →
      exec (.retirePattern n) s = .next (answered s 3 .inUse (.key (.pattern n)))) ∧
    (∀ p, 1 ≤ n → n ≤ 15 → s.store.patterns.get n = some p → p.refs = 0 →
      exec (.retirePattern n) s = .next (answered
        { s with store := { s.store with patterns := s.store.patterns.filter (fun e => e.1 != n) } } 3 .ok (.key (.pattern n))))

/-! ### Zones and programs -/

/-- R48, R60, R90 to R94, R100, R159: AMEND and RETIRE of the ZONE table: the refusals in their order; the configuration stored with its
clamps and defaults, and CLAMPED exactly after one of R92's clamps; an inserted zone's live fields; what a replaced zone keeps, and its path
when it moves; its deferral dropped when the amendment forces its bell, with the suppressed count of its division and a BELL event; the zone
counts of an insertion and of a move, and the reference counts of the alert patterns; the call eligibility cleared in its building by an
insertion, a move and a new call switch; nothing else changed; and a retirement that takes the zone out of every entry and every drill
program.
The window of a Degraded zone that moves into a Lost building, and the event of an insertion there, are inferred (log 19). -/
def Obligations.ZoneTableRequests : Prop :=
  (∀ (f : ZoneFields) (kind : ZoneKind) (held : Option ZoneConfig),
    let c := zoneConfigOf f kind held
    c.building = f.building ∧ c.division = f.division ∧ c.kind = kind ∧ c.alertPattern = f.alertPattern ∧
    c.callSwitch = (f.callSwitch && decide (kind = .room)) ∧ c.alertDuration = max 1 (min 10 f.alertDuration) ∧
    (∀ u, f.upper = some u → c.upper = max 1 (min 255 u)) ∧ (f.upper = none → c.upper = match held with
      | some h => h.upper
      | none => 8) ∧
    (∀ l, f.lower = some l → c.lower = min c.upper l) ∧ (f.lower = none → c.lower = min c.upper (match held with
      | some h => h.lower
      | none => 2)) ∧
    (∀ w, f.window = some w → c.window = max 8 (min 255 w)) ∧ (f.window = none → c.window = match held with
      | some h => h.window
      | none => 16) ∧
    (∀ n, f.bellThreshold = .level n → c.bellThreshold = .level (max 1 (min 4 n))) ∧
    (f.bellThreshold = .never → c.bellThreshold = .never) ∧
    (∀ n, f.speakerThreshold = .level n → c.speakerThreshold = .level (max 1 (min 4 n))) ∧
    (f.speakerThreshold = .never → c.speakerThreshold = .never) ∧
    (∀ n, f.auxThreshold = .level n → c.auxThreshold = .level (max 1 (min 4 n))) ∧
    (f.auxThreshold = .never → c.auxThreshold = .never) ∧
    c.bellForced = f.bellForced ∧ c.speakerForced = f.speakerForced ∧ c.auxForced = f.auxForced) ∧
  ∀ (z : Nat) (f : ZoneFields) (s : State), s.resetHeld = false →
    let reply (r : ResultCode) : Prop := exec (.amendZone z f) s = .next (answered s 2 r (.key (.zone z)))
    let tied : Prop := (∃ x, s.zones.get z = some x ∧ x.claim.isSome = true) ∨ requestedByLive s z = true ∨ namedByCall s z = true ∨
      inRecordZones s z = true
    (63 < z ∨ 7 < f.building ∨ 3 < f.division ∨ 3 < f.kind ∨ 15 < f.alertPattern → reply .range) ∧
    (∀ kind, z ≤ 63 → f.building ≤ 7 → f.division ≤ 3 → f.alertPattern ≤ 15 → zoneKindOf f.kind = some kind →
      (s.store.patterns.get f.alertPattern = none → reply .notFound) ∧
      (s.store.patterns.get f.alertPattern ≠ none →
        let inUse : Prop := ∃ x, s.zones.get z = some x ∧
          ((f.division ≠ x.config.division ∧ ∃ e ∈ s.store.entries, mem e.zones z = true) ∨ (f.building ≠ x.config.building ∧ tied) ∨
            (namedByCall s z = true ∧ ((x.config.kind = .room ∧ kind ≠ .room) ∨
              (x.config.callSwitch = true ∧ ¬ (f.callSwitch = true ∧ kind = .room)))))
        let full : Prop := (∀ x, s.zones.get z = some x → x.config.building ≠ f.building) ∧ 16 ≤ (s.zoneCounts[f.building]?).getD 0
        (inUse → reply .inUse) ∧ (¬ inUse → full → reply .full) ∧
        (∀ config : ZoneConfig, ¬ inUse → ¬ full → config = zoneConfigOf f kind ((s.zones.get z).map (·.config)) →
          let beyond (t : Threshold) : Prop := ∃ n, t = .level n ∧ (n < 1 ∨ 4 < n)
          let clamped : Prop := beyond f.bellThreshold ∨ beyond f.speakerThreshold ∨ beyond f.auxThreshold ∨
            f.alertDuration < 1 ∨ 10 < f.alertDuration ∨ (∃ u, f.upper = some u ∧ (u < 1 ∨ 255 < u)) ∨
            (∃ w, f.window = some w ∧ (w < 8 ∨ 255 < w)) ∨ config.upper < (match f.lower, s.zones.get z with
              | some l, _ => l
              | none, some x => x.config.lower
              | none, none => 2)
          ∃ (t : State) (y : Zone), exec (.amendZone z f) s = .next t ∧ t.zones.get z = some y ∧ y.config = config ∧
            (∀ k, k ≠ z → t.zones.get k = s.zones.get k) ∧
            (clamped → t.port = (answered s 2 .clamped (.record (.zone z) (.zone config none))).port) ∧
            (¬ clamped → t.port = (answered s 2 .ok (.record (.zone z) (.zone config none))).port) ∧
            (s.zones.get z = none →
              y = { config := config, accumulator := 0, reports := 0, alertDone := false, bell := .idle, tagCounter := 0, aux := false
                    claim := none, path := if linkStateOf s f.building = .lost then .degraded else .good
                    firstWindow := decide (linkStateOf s f.building = .lost) } ∧
              (∀ b : Nat, t.zoneCounts[b]? = if b = f.building then (s.zoneCounts[b]?).map (· + 1) else s.zoneCounts[b]?) ∧
              (∀ k p, s.store.patterns.get k = some p → t.store.patterns.get k = some
                { p with refs := if k = f.alertPattern then p.refs + 1 else p.refs }) ∧
              (linkStateOf s f.building = .lost → statusSet t .zone) ∧ t.cal = s.cal) ∧
            (∀ x, s.zones.get z = some x →
              let dropped : Prop := x.bell.isDeferred = true ∧ bellForcedIn s x = false ∧
                thresholdReached config.bellThreshold s.modes.effective = true
              y.alertDone = x.alertDone ∧ y.tagCounter = x.tagCounter ∧ y.aux = x.aux ∧ y.claim = x.claim ∧
              (dropped → y.bell = .idle ∧ statusSet t .bell ∧
                ∀ (v : Nat) (d : Division), s.cal.divisions[v]? = some d → t.cal.divisions[v]? = some
                  (if v = f.division then { d with suppressed := min 65535 (d.suppressed + 1) } else d)) ∧
              (¬ dropped → y.bell = x.bell ∧ t.cal = s.cal) ∧
              (∀ k p, s.store.patterns.get k = some p → t.store.patterns.get k = some
                { p with refs := if f.alertPattern = x.config.alertPattern then p.refs
                                 else if k = f.alertPattern then p.refs + 1
                                 else if k = x.config.alertPattern then p.refs - 1 else p.refs }) ∧
              (f.building = x.config.building → y.path = x.path ∧ y.accumulator = x.accumulator ∧ y.reports = x.reports ∧
                y.firstWindow = x.firstWindow ∧ t.zoneCounts = s.zoneCounts) ∧
              (f.building ≠ x.config.building → y.accumulator = 0 ∧ y.reports = 0 ∧
                y.path = (if linkStateOf s f.building = .lost then .degraded else .good) ∧
                y.firstWindow = decide (linkStateOf s f.building = .lost) ∧ (y.path ≠ x.path → statusSet t .zone) ∧
                ∀ b : Nat, t.zoneCounts[b]? = if b = f.building then (s.zoneCounts[b]?).map (· + 1)
                  else if b = x.config.building then (s.zoneCounts[b]?).map (· - 1) else s.zoneCounts[b]?)) ∧
            (let fresh : Prop := ∀ x, s.zones.get z = some x →
              f.building ≠ x.config.building ∨ (config.callSwitch = true ∧ x.config.callSwitch = false)
            ∀ (b : Nat) (w : Building), s.link.buildings[b]? = some w → ∃ eligible : ZoneSet,
              t.link.buildings[b]? = some { w with eligible := eligible } ∧ (¬ (fresh ∧ b = f.building) → eligible = w.eligible) ∧
              (fresh → b = f.building → ∀ k, mem eligible k = (mem w.eligible k && decide (k ≠ z)))) ∧
            t = { s with zones := t.zones, zoneCounts := t.zoneCounts, store := { s.store with patterns := t.store.patterns }
                         cal := { s.cal with divisions := t.cal.divisions }
                         link := { s.link with buildings := t.link.buildings }, attn := t.attn, port := t.port }))) ∧
    (63 < z → exec (.retireZone z) s = .next (answered s 3 .range (.key (.zone z)))) ∧
    (z ≤ 63 → s.zones.get z = none → exec (.retireZone z) s = .next (answered s 3 .notFound (.key (.zone z)))) ∧
    (z ≤ 63 → s.zones.get z ≠ none → tied → exec (.retireZone z) s = .next (answered s 3 .inUse (.key (.zone z)))) ∧
    (∀ x, z ≤ 63 → s.zones.get z = some x → ¬ tied → ∃ u : State,
      exec (.retireZone z) s = .next (answered u 3 .ok (.key (.zone z))) ∧
      u.zones = s.zones.filter (fun e => e.1 != z) ∧
      u.store.entries = s.store.entries.map (fun e => { e with zones := eraseMember e.zones z }) ∧
      (∀ k, u.modes.programs.get k = (s.modes.programs.get k).map (fun p =>
        { p with fields := { p.fields with zones := eraseMember p.fields.zones z } })) ∧
      (∀ k y, s.store.patterns.get k = some y → u.store.patterns.get k = some
        { y with refs := if x.config.alertPattern = k then y.refs - 1 else y.refs }) ∧
      (∀ b : Nat, u.zoneCounts[b]? = if b = x.config.building then (s.zoneCounts[b]?).map (· - 1) else s.zoneCounts[b]?) ∧
      u = { s with zones := u.zones, zoneCounts := u.zoneCounts
                   store := { s.store with entries := u.store.entries, patterns := u.store.patterns }
                   modes := { s.modes with programs := u.modes.programs } })

/-- R48, R140, R141, R142: AMEND and RETIRE of the PROGRAM table: the refusals in their order, the clamps with the muster deadline raised to the
target, the program stored with its last result kept, or retired with it, and the counts of the patterns it names. -/
def Obligations.ProgramTableRequests : Prop :=
  ∀ (n : Nat) (f : ProgramFields) (s : State), s.resetHeld = false →
    let reply (r : ResultCode) : Prop := exec (.amendProgram n f) s = .next (answered s 2 r (.key (.program n)))
    let named : Prop := ∃ r, s.modes.record = some r ∧ r.program = some n
    let names (g : ProgramFields) (k : Nat) : Nat := if g.tone = k ∨ g.allClear = k then 1 else 0
    (7 < n ∨ 15 < f.tone ∨ 15 < f.allClear → reply .range) ∧
    (n ≤ 7 → f.tone ≤ 15 → f.allClear ≤ 15 →
      ((∃ z, mem f.zones z = true ∧ s.zones.get z = none) → reply .range) ∧
      ((∀ z, mem f.zones z = true → s.zones.get z ≠ none) →
        (s.store.patterns.get f.tone = none ∨ s.store.patterns.get f.allClear = none → reply .notFound) ∧
        (s.store.patterns.get f.tone ≠ none → s.store.patterns.get f.allClear ≠ none →
          (named → reply .inUse) ∧
          (∀ g : ProgramFields, ¬ named →
            g = { f with sounding := max 10 (min 600 f.sounding), target := max 60 (min 3600 f.target)
                         deadline := max (max 60 (min 3600 f.target)) (max 60 (min 3600 f.deadline))
                         allClearDuration := max 1 (min 30 f.allClearDuration) } →
            ∃ u : State,
              let stored : Program := { fields := g, lastResult := match s.modes.programs.get n with
                | some p => p.lastResult
                | none => none }
              exec (.amendProgram n f) s = .next (answered u 2 (if g = f then .ok else .clamped)
                (.record (.program n) (.programAmended stored))) ∧
              u.modes.programs.get n = some stored ∧
              (∀ k, k ≠ n → u.modes.programs.get k = s.modes.programs.get k) ∧
              (∀ k y, s.store.patterns.get k = some y → u.store.patterns.get k = some { y with refs :=
                y.refs - (match s.modes.programs.get n with
                  | some p => names p.fields k
                  | none => 0) + (names g k) }) ∧
              u = { s with store := { s.store with patterns := u.store.patterns }
                           modes := { s.modes with programs := u.modes.programs } })))) ∧
    (7 < n → exec (.retireProgram n) s = .next (answered s 3 .range (.key (.program n)))) ∧
    (n ≤ 7 → s.modes.programs.get n = none → exec (.retireProgram n) s = .next (answered s 3 .notFound (.key (.program n)))) ∧
    (n ≤ 7 → s.modes.programs.get n ≠ none → named → exec (.retireProgram n) s = .next (answered s 3 .inUse (.key (.program n)))) ∧
    (∀ p, n ≤ 7 → s.modes.programs.get n = some p → ¬ named → ∃ u : State,
      exec (.retireProgram n) s = .next (answered u 3 .ok (.key (.program n))) ∧
      u.modes.programs = s.modes.programs.filter (fun e => e.1 != n) ∧
      (∀ k y, s.store.patterns.get k = some y → u.store.patterns.get k = some { y with refs := y.refs - (names p.fields k) }) ∧
      u = { s with store := { s.store with patterns := u.store.patterns }, modes := { s.modes with programs := u.modes.programs } })

/-! ### Bells and outputs -/

/-- R54, R55, R57, R59, R63: what a due Bell entry does on one zone, by the four cases of R54, with the counts of the zone's division; what the
expiry of a deferral's deadline does; and the end of a sounding.
That an expiry or an end before its time changes nothing is the model's choice (log 5). -/
def Obligations.BellsOnAZone : Prop :=
  (∀ (s : State) (z pattern duration limit late v : Nat) (holdable : Bool) (x : Zone) (tag : Nat) (d : Division),
    s.resetHeld = false → s.zones.get z = some x → x.config.division = v → s.cal.divisions[v]? = some d →
    tag = (x.tagCounter + 1) % 16 →
    let t := s.bellOnZone pattern duration holdable limit late z
    let forced := thresholdReached x.config.bellThreshold s.modes.effective
    let starts : Zone := { x with bell := .sounding pattern duration (16 * duration) tag, tagCounter := tag }
    let replaced : State → Prop := fun t => if x.bell.isDeferred = true
      then statusSet t .bell ∧ t.cal.divisions[v]? = some { d with missed := min 65535 (d.missed + 1) } else t.cal = s.cal
    (forced = true → t.zones = s.zones ∧ statusSet t .bell ∧
      t.cal.divisions[v]? = some { d with suppressed := min 65535 (d.suppressed + 1) }) ∧
    (∀ p u n g, forced = false → x.bell = .sounding p u n g →
      (16 * duration ≤ n → t = s) ∧ (n < 16 * duration → t.zones.get z = some starts ∧ t.cal = s.cal)) ∧
    (forced = false → x.bell.isSounding = false → holdable = true ∧ x.claim.isSome = true ∧ late < limit →
      t.zones.get z = some { x with bell := .deferred pattern duration s.time.counter (limit - late) } ∧ replaced t) ∧
    (forced = false → x.bell.isSounding = false → ¬ (holdable = true ∧ x.claim.isSome = true ∧ late < limit) →
      t.zones.get z = some starts ∧ replaced t) ∧
    (∀ k, k ≠ z → t.zones.get k = s.zones.get k) ∧
    t = { s with zones := t.zones, cal := { s.cal with divisions := t.cal.divisions }, attn := t.attn }) ∧
  (∀ (s : State) (z : Nat) (x : Zone) (p u length tag : Nat) (start : Counter), s.resetHeld = false → s.zones.get z = some x →
    x.bell = .deferred p u start length → tag = (x.tagCounter + 1) % 16 →
    (length ≤ (s.time.counter - start).toNat → x.claim.isSome = true → ∃ zones, exec (.deferralDeadlineExpiry z) s = .next { s with
        zones := zones } ∧ zones.get z = some { x with bell := .sounding p u (16 * u) tag, tagCounter := tag } ∧
      ∀ k, k ≠ z → zones.get k = s.zones.get k) ∧
    ((s.time.counter - start).toNat < length → exec (.deferralDeadlineExpiry z) s = .next s)) ∧
  (∀ (s : State) (z : Nat) (x : Zone) (p u n tag : Nat), s.resetHeld = false → s.zones.get z = some x → x.bell = .sounding p u n tag →
    ∃ zones, exec (.soundingEnd z) s = .next { s with zones := zones } ∧
      zones.get z = some { x with bell := if n = 0 then .idle else x.bell } ∧ ∀ k, k ≠ z → zones.get k = s.zones.get k)

/-- R95, R96, R97: the delivered values of a zone's outputs and their layers: the evacuation drive on the bell alone, else the forced level once
the effective mode reaches the output's threshold, else the job drive. -/
def Obligations.DeliveredValues : Prop :=
  ∀ (s : State) (z : Nat) (x : Zone) (v : Delivered), v = deliveredOf s z x →
    (∀ r p d tag program, s.modes.record = some r → r.program = some p → s.modes.programs.get p = some program → r.drive = some d →
      d.tags.get z = some tag → v.bellLayer = .evacuation ∧
      v.bell = .sounding (match d.tone with
        | .evacuation => program.fields.tone
        | .allClear => program.fields.allClear) tag ((d.ticks + 1) / 2)) ∧
    ((∀ r d, s.modes.record = some r → r.drive = some d → d.tags.get z = none) →
      (thresholdReached x.config.bellThreshold s.modes.effective = true →
        v.bellLayer = .forced ∧ v.bell = if x.config.bellForced then .steady else .off) ∧
      (thresholdReached x.config.bellThreshold s.modes.effective = false → v.bellLayer = .job ∧
        (∀ p u n tag, x.bell = .sounding p u n tag → v.bell = .sounding p tag ((n + 1) / 2)) ∧
        (x.bell.isSounding = false → v.bell = .off))) ∧
    (thresholdReached x.config.speakerThreshold s.modes.effective = true →
      v.speakerLayer = .forced ∧ v.speaker = if x.config.speakerForced then .bus 0 else .off) ∧
    (thresholdReached x.config.speakerThreshold s.modes.effective = false → v.speakerLayer = .job ∧
      (x.claim = none → v.speaker = .off) ∧
      (∀ c, x.claim = some c → x.bell.isSounding = true → v.speaker = .off) ∧
      (∀ c, x.claim = some c → x.bell.isSounding = false → v.speaker = if c.talkBack then .talkBack c.bus else .bus c.bus)) ∧
    (thresholdReached x.config.auxThreshold s.modes.effective = true → v.auxLayer = .forced ∧ v.aux = x.config.auxForced) ∧
    (thresholdReached x.config.auxThreshold s.modes.effective = false → v.auxLayer = .job ∧ v.aux = x.aux) ∧
    (∀ n, thresholdReached (.level n) s.modes.effective = true ↔ n ≤ s.modes.effective.level) ∧
    thresholdReached .never s.modes.effective = false

/-! ### Clock lines -/

/-- R75 whole: an evaluation takes T from the civil minute-of-day and E from R73; with D the dial distance and A = 720 − D it makes the line
Synced at D = 0, Holding at a lead of A of at most H (Synced when a pulse is owed and A is 1), and Advancing at a greater lead, with N as D × 60
over 60 − F rounded up; a line that is not Advancing has N = 0; and the decision does not depend on the state before. -/
def Obligations.EvaluationDecidesALine : Prop :=
  (∀ s : State, targetNow s = s.time.snapshot.civilMinute % 720) ∧
  ∀ (l : Line) (target e d a : Nat), target < 720 → l.position < 720 →
    e = (if l.owed = .none then l.position else (l.position + 1) % 720) → d = (target + 720 - e) % 720 → a = 720 - d →
    (d = 0 → (l.evaluate target).state = .synced) ∧
    (d ≠ 0 → a ≤ l.hold → ¬ (l.owed ≠ .none ∧ a = 1) → (l.evaluate target).state = .holding) ∧
    (d ≠ 0 → a ≤ l.hold → l.owed ≠ .none → a = 1 → (l.evaluate target).state = .synced) ∧
    (d ≠ 0 → l.hold < a → (l.evaluate target).state = .advancing ∧
      (1 ≤ l.fast → l.fast ≤ 15 → (l.evaluate target).predicted = (d * 60 + 59 - l.fast) / (60 - l.fast))) ∧
    ((l.evaluate target).state ≠ .advancing → (l.evaluate target).predicted = 0) ∧
    (∀ before : LineState, (Line.evaluate target { l with state := before }).state = (l.evaluate target).state)

/-- R83 whole: STOP. An Unset line stays Unset; any other becomes Stopped with its position, polarity and fault cause kept and N = 0; a waiting
pulse is withdrawn; a pulse in progress runs to its completion and counts; a fault during it makes the line Faulted; a frame in progress
stays; a Stopped line takes no action at minute boundaries, steps or amendments; the reply is OK whether time is valid or not. -/
def Obligations.StopTakesALineOut : Prop :=
  (∀ (n : Nat) (l m : Line) (s : State), s.resetHeld = false → s.lines[n]? = some l →
    m = (if l.state = .unset then l else { l with
      state := .stopped, predicted := 0, owed := if l.owed = .waiting then .none else l.owed }) →
    ∃ lines, exec (.lineControlStop n) s = .next (answered { s with lines := lines } 27 .ok (.lineRecord m)) ∧ lines[n]? = some m ∧
      ∀ k : Nat, k ≠ n → lines[k]? = s.lines[k]?) ∧
  (∀ (n slot width : Nat) (polarity : Polarity) (l : Line) (s : State), s.resetHeld = false → s.lines[n]? = some l → l.state = .stopped →
    l.owed = .inProgress slot polarity width →
    (width ≤ l.sinceStart → ∃ lines, exec (.pulseCompletion n) s = .next { s with lines := lines } ∧ lines[n]? = some { l with
      position := (l.position + 1) % 720, polarity := flipPolarity l.polarity, owed := .none }) ∧
    (∃ t m, exec (.lineFault n true false) s = .next t ∧ t.lines[n]? = some m ∧ m.state = .faulted ∧ m.owed = .none ∧
      m.position = l.position ∧ m.polarity = l.polarity ∧ m.fault = .overcurrent)) ∧
  (∀ (l : Line) (target hold fast width : Nat), l.state = .stopped →
    l.minuteBoundary target = (l, false) ∧ l.evaluateRunning target = l ∧
    l.amend l.kind hold fast width = { l with hold := hold, fast := fast, width := width })

/-- R76, R79, R82, R84, R85: RUN, SET POSITION and AMEND of the LINE table, and STOP of a line above 11: the refusals in their order, the clamps, and the line that stands
after each, evaluated against the civil minute where the rule says so; every other line as it was.
That a refused control has a reply without a body is the model's choice (log 9). -/
def Obligations.LineControlsAndAmendments : Prop :=
  ∀ (n position : Nat) (polarity : Option Polarity) (f : LineFields) (s : State), s.resetHeld = false →
    let target := s.time.snapshot.civilMinute % 720
    let becomes (c : Instr) (m : Line) (reply : State → State) : Prop := ∃ lines, exec c s = .next (reply { s with lines := lines }) ∧
      lines[n]? = some m ∧ ∀ k : Nat, k ≠ n → lines[k]? = s.lines[k]?
    (12 ≤ n → exec (.lineControlRun n) s = .next (answered s 27 .range .empty) ∧
      exec (.lineControlStop n) s = .next (answered s 27 .range .empty) ∧
      exec (.lineControlSetPosition n position polarity) s = .next (answered s 27 .range .empty) ∧
      exec (.amendLine n f) s = .next (answered s 2 .range (.key (.line n)))) ∧
    (∀ l : Line, s.lines[n]? = some l →
      (l.state ≠ .stopped → l.state ≠ .faulted →
        becomes (.lineControlRun n) l (answered · 27 .ok (.lineRecord l))) ∧
      (l.state = .stopped ∨ l.state = .faulted →
        (l.kind = .coded → becomes (.lineControlRun n) { l with state := .following, fault := .none }
          (answered · 27 .ok (.lineRecord { l with state := .following, fault := .none }))) ∧
        (l.kind = .impulse → s.time.valid = false → exec (.lineControlRun n) s = .next (answered s 27 .timeInvalid .empty)) ∧
        (l.kind = .impulse → s.time.valid = true → ∀ m, m = Line.evaluate target { l with fault := .none } →
          becomes (.lineControlRun n) m (answered · 27 .ok (.lineRecord m)))) ∧
      (l.kind = .coded → exec (.lineControlSetPosition n position polarity) s = .next (answered s 27 .range .empty)) ∧
      (l.kind = .impulse → s.time.valid = false →
        exec (.lineControlSetPosition n position polarity) s = .next (answered s 27 .timeInvalid .empty)) ∧
      (l.kind = .impulse → s.time.valid = true → (∃ slot p w, l.owed = .inProgress slot p w) →
        exec (.lineControlSetPosition n position polarity) s = .next (answered s 27 .busy .empty)) ∧
      (∀ m, l.kind = .impulse → s.time.valid = true → (∀ slot p w, l.owed ≠ .inProgress slot p w) →
        m = Line.evaluate target { l with position := min 719 position, polarity := polarity.getD l.polarity, fault := .none
                                          owed := .none } →
        becomes (.lineControlSetPosition n position polarity) m
          (answered · 27 (if 719 < position then .clamped else .ok) (.lineRecord m))) ∧
      (lineKindOf f.kind = none → exec (.amendLine n f) s = .next (answered s 2 .range (.key (.line n)))) ∧
      (∀ kind m hold fast width, lineKindOf f.kind = some kind → hold = min 180 f.hold → fast = max 1 (min 15 f.fast) →
        width = max 4 (min 15 f.width) →
        (kind ≠ l.kind → (∃ slot p w, l.owed = .inProgress slot p w) ∨ l.frame.isSome = true →
          exec (.amendLine n f) s = .next (answered s 2 .busy (.key (.line n)))) ∧
        ((kind = l.kind ∧ m = (if hold = l.hold ∧ fast = l.fast ∧ width = l.width then l
              else Line.evaluateRunning target { l with hold := hold, fast := fast, width := width })) ∨
            (kind = .coded ∧ l.kind = .impulse ∧ (∀ slot p w, l.owed ≠ .inProgress slot p w) ∧ l.frame = none ∧
              m = { l with kind := .coded, hold := hold, fast := fast, width := width, state := .stopped, predicted := 0, owed := .none }) ∨
            (kind = .impulse ∧ l.kind = .coded ∧ (∀ slot p w, l.owed ≠ .inProgress slot p w) ∧ l.frame = none ∧
              m = { l with kind := .impulse, hold := hold, fast := fast, width := width, state := .unset, position := 0, polarity := .a
                           fault := .none }) →
          becomes (.amendLine n f) m (answered · 2
            (if 180 < f.hold ∨ f.fast < 1 ∨ 15 < f.fast ∨ f.width < 4 ∨ 15 < f.width then .clamped else .ok)
            (.record (.line n) (.lineAmended m))))))

/-- R71, R72, R79, R80, R81, R88: the events of a pulse and of a frame. The lowest-numbered waiting line starts its pulse in some free slot; a
pulse completes at its width, moving the dial one minute and flipping the polarity; an Advancing line that owes no pulse waits again 16 × F
ticks after its last start; a fault aborts the pulse or ends the frame and raises LINE; a frame ends 12 ticks after its boundary.
That an event command before its time changes nothing is the model's choice (log 5), and so is the free slot (log 3). -/
def Obligations.PulsesAndFrames : Prop :=
  ∀ (n : Nat) (l : Line) (s : State), s.resetHeld = false → s.lines[n]? = some l →
    let others (lines : Vector Line 12) : Prop := ∀ k : Nat, k ≠ n → lines[k]? = s.lines[k]?
    (l.owed = .waiting → (∀ (k : Nat) (m : Line), k < n → s.lines[k]? = some m → m.owed ≠ .waiting) →
      ((∃ slot, slot < 4 ∧ ∀ (k : Nat) (m : Line), s.lines[k]? = some m → ∀ p w, m.owed ≠ .inProgress slot p w) →
        ∃ t slot, exec .pulseStart s = .next t ∧ slot < 4 ∧
          (∀ (k : Nat) (m : Line), s.lines[k]? = some m → ∀ p w, m.owed ≠ .inProgress slot p w) ∧
          t.lines[n]? = some { l with owed := .inProgress slot l.polarity l.width, sinceStart := 0 } ∧ others t.lines ∧
          t = { s with lines := t.lines, freeCount := t.freeCount }) ∧
      ((∀ slot, slot < 4 → ∃ (k : Nat) (m : Line) (p : Polarity) (w : Nat), s.lines[k]? = some m ∧ m.owed = .inProgress slot p w) →
        exec .pulseStart s = .next s)) ∧
    ((∀ (k : Nat) (m : Line), s.lines[k]? = some m → m.owed ≠ .waiting) → exec .pulseStart s = .next s) ∧
    (∀ slot p w, l.owed = .inProgress slot p w →
      (l.sinceStart < w → exec (.pulseCompletion n) s = .next s) ∧
      (w ≤ l.sinceStart → ∃ t m, exec (.pulseCompletion n) s = .next t ∧ t.lines[n]? = some m ∧ others t.lines ∧
        m.position = (l.position + 1) % 720 ∧ m.polarity = flipPolarity l.polarity ∧
        (l.state.running = false → m.state = l.state ∧ m.owed = .none) ∧
        (∀ d, l.state.running = true → d = (s.time.snapshot.civilMinute % 720 + 720 - m.position) % 720 →
          m.state = (if d = 0 then .synced else if 720 - d ≤ l.hold then .holding else .advancing) ∧
          (m.state ≠ .advancing → m.predicted = 0 ∧ m.owed = .none) ∧
          (m.state = .advancing → m.predicted = (if l.state = .advancing then l.predicted else (d * 60 + 59 - l.fast) / (60 - l.fast)) ∧
            m.owed = if 16 * l.fast ≤ l.sinceStart then .waiting else .none) ∧
          (l.state = .advancing → m.state ≠ .advancing → statusSet t .line)) ∧
        t = { s with lines := t.lines, attn := t.attn })) ∧
    (∃ lines, exec (.fastPulseWait n) s = .next { s with lines := lines } ∧ others lines ∧ lines[n]? = some
      (if l.state = .advancing ∧ l.owed = .none ∧ 16 * l.fast ≤ l.sinceStart then { l with owed := .waiting } else l)) ∧
    (∀ overcurrent openCircuit : Bool,
      (((∃ slot p w, l.owed = .inProgress slot p w) ∨ l.frame.isSome = true) ∧ (overcurrent = true ∨ openCircuit = true) →
        ∃ t, exec (.lineFault n overcurrent openCircuit) s = .next t ∧ others t.lines ∧ statusSet t .line ∧
          t.lines[n]? = some { l with
            state := .faulted, predicted := 0, owed := .none, frame := none
            fault := if overcurrent then .overcurrent else .openCircuit } ∧
          t = { s with lines := t.lines, attn := t.attn }) ∧
      ((∀ slot p w, l.owed ≠ .inProgress slot p w) → l.frame = none → exec (.lineFault n overcurrent openCircuit) s = .next s)) ∧
    (∃ lines, exec (.codedFrameEnd n) s = .next { s with lines := lines } ∧ others lines ∧ lines[n]? = some { l with
      frame := match l.frame with
        | some g => if 12 ≤ g.ticks then none else some g
        | none => none })

/-! ### Announcements and room calls -/

/-- R102, R106, R109 to R115: grants. ANNOUNCE granted at once, when its checks pass, a bus is free to it, and its coverage is met by free
zones, every other requested zone being held at its own priority or above: the record takes the lowest empty slot, the lowest free bus and
the free zones, Active from now; the zones bear its claim, a Degraded one sounding its alert when its bell is Idle; nothing else changes. A
zone held at a lower priority by a record that keeps another zone passes to the new record without becoming free, with an ANNOUNCE event.
And in full, while no record waits and no other record has coverage ANY: the record takes every zone that is free or held at a lower
priority; without a free bus it takes that of the victim, which ends Preempted, its other zones becoming free; a holder left with no zone
ends ZonesLost and frees its bus; and a holder that keeps a zone stays Active with the rest. The regrant, after RELEASE of an Active record:
beside one other live record, that one, Active with coverage ANY, picks up the free zones of its requested set, or, Waiting, is granted with
an ANNOUNCE event; and in every case no Waiting record is left that could be granted, and no Active record of coverage ANY with a free
zone of its requested set. That the later of two starts is the one with the fewer elapsed seconds since it, modulo 2^32, is the model's
reading of R110 (log 11). -/
def Obligations.AnnounceGrantsFreeZones : Prop :=
  (∀ (f : AnnounceFields) (p : Priority) (c : Coverage) (n bus : Nat) (a : Announcement) (taken : ZoneSet) (s : State),
    s.resetHeld = false → ClaimsLaw s → f.source ≤ 3 → priorityOf f.priority = some p → coverageOf f.coverage = some c →
    modeAllows s.modes.effective p = true → (∀ e ∈ s.arb.slots, e.2.live = true → e.2.source ≠ f.source) →
    n < 16 → s.arb.slots.get n = none → (∀ k, k < n → s.arb.slots.get k ≠ none) →
    f.zones ≠ 0 → (∀ z, mem f.zones z = true → s.zones.get z ≠ none) →
    (f.talkBack = true → ∀ z z', mem f.zones z = true → mem f.zones z' = true → z = z') →
    a = { source := f.source, priority := p, coverage := c, requested := f.zones, held := taken, state := .active bus
          arrivalSecond := s.time.counter, startSecond := some s.time.counter, waitLimit := min 60 f.waitLimit
          talkBack := f.talkBack, answering := none
          maxDuration := if f.maxDuration = 0 then (if p = .emergency then none else some 600) else some (min 600 f.maxDuration) } →
    let clamped : Prop := (f.maxDuration = 0 ∧ p ≠ .emergency) ∨ 600 < f.maxDuration ∨ 60 < f.waitLimit
    let claimed (t : State) (z : Nat) (x : Zone) : Prop := ∃ y, t.zones.get z = some y ∧
      y.claim = some { record := n, bus := bus, talkBack := f.talkBack } ∧
      (x.path = .degraded → x.bell = .idle → y.alertDone = true ∧ y.bell = .sounding x.config.alertPattern x.config.alertDuration
        (16 * x.config.alertDuration) ((x.tagCounter + 1) % 16)) ∧
      (x.path = .good ∨ x.bell ≠ .idle → y.alertDone = false ∧ y.bell = x.bell)
    let usable (b : Nat) : Prop := b < 4 ∧ (b = 0 → p = .emergency)
    let free : Prop := usable bus ∧ s.arb.buses[bus]? = some none ∧ ∀ b : Nat, b < bus → usable b → s.arb.buses[b]? ≠ some none
    let elapsed (b : Announcement) : Nat := (s.time.counter - b.startSecond.getD s.time.counter).toNat
    let preempts (v : Nat) : Prop := usable bus ∧ (∀ k, usable k → s.arb.buses[k]? ≠ some none) ∧
      ∃ b, s.arb.slots.get v = some b ∧ b.state = .active bus ∧ b.priority.rank < p.rank ∧
        ∀ m w k, m ≠ v → s.arb.slots.get m = some w → w.state = .active k → usable k → w.priority.rank < p.rank →
          b.priority.rank < w.priority.rank ∨ (b.priority = w.priority ∧ (elapsed b < elapsed w ∨
            (elapsed b = elapsed w ∧ s.arb.arrival.idxOf m < s.arb.arrival.idxOf v)))
    let ended (b : Announcement) (r : EndReason) : Announcement := { b with state := .ended r s.time.counter s.time.stamp, held := 0 }
    (free → (∀ z, mem taken z = true ↔ mem f.zones z = true ∧ ∃ x, s.zones.get z = some x ∧ x.claim = none) → taken ≠ 0 →
      (c = .all → taken = f.zones) →
      (∀ z x cl b, mem f.zones z = true → s.zones.get z = some x → x.claim = some cl → s.arb.slots.get cl.record = some b →
        p.rank ≤ b.priority.rank) →
      ∃ t, exec (.announce f) s = .next t ∧ t.arb.slots.get n = some a ∧ (∀ k, k ≠ n → t.arb.slots.get k = s.arb.slots.get k) ∧
        t.arb.buses[bus]? = some (some { record := n, source := f.source }) ∧
        (∀ b : Nat, b ≠ bus → t.arb.buses[b]? = s.arb.buses[b]?) ∧ t.arb.arrival = s.arb.arrival ++ [n] ∧
        (∀ z x, s.zones.get z = some x → mem taken z = true → claimed t z x) ∧
        (∀ z, mem taken z = false → t.zones.get z = s.zones.get z) ∧
        t.port = (answered s 19 (if clamped then .clamped else .ok) (.announced n (.active bus) taken)).port ∧
        t = { s with zones := t.zones, arb := t.arb, port := t.port }) ∧
    (∀ z x m b, free → f.zones = single 64 z → taken = f.zones → s.zones.get z = some x → x.claim = some m →
      s.arb.slots.get m.record = some b → b.priority.rank < p.rank → b.held ≠ single 64 z →
      ∃ t, exec (.announce f) s = .next t ∧ t.arb.slots.get n = some a ∧ claimed t z x ∧ statusSet t .announce ∧
        t.arb.slots.get m.record = some { b with held := eraseMember b.held z } ∧
        (∀ k, k ≠ n → k ≠ m.record → t.arb.slots.get k = s.arb.slots.get k) ∧ (∀ k, k ≠ z → t.zones.get k = s.zones.get k)) ∧
    (∀ victim : Option Nat, s.arb.slots.Sorted → (victim = none → free) → (∀ v, victim = some v → preempts v) →
      (∀ z, mem taken z = true ↔ mem f.zones z = true ∧ ∃ x, s.zones.get z = some x ∧
        (x.claim = none ∨ ∃ cl b, x.claim = some cl ∧ s.arb.slots.get cl.record = some b ∧ b.priority.rank < p.rank)) →
      taken ≠ 0 → (c = .all → taken = f.zones) →
      (∀ e ∈ s.arb.slots, e.2.state ≠ .waiting ∧ (e.2.live = true → e.2.coverage = .all)) →
      ∃ t, exec (.announce f) s = .next t ∧ t.arb.slots.get n = some a ∧
        t.arb.buses[bus]? = some (some { record := n, source := f.source }) ∧
        (∀ z x, s.zones.get z = some x → mem taken z = true → claimed t z x) ∧
        (∀ k b, s.arb.slots.get k = some b →
          (victim = some k → t.arb.slots.get k = some (ended b .preempted) ∧ statusSet t .announce) ∧
          (victim ≠ some k → b.held &&& taken = 0 → t.arb.slots.get k = some b) ∧
          (victim ≠ some k → b.held &&& taken ≠ 0 → b.held &&& ~~~taken ≠ 0 →
            t.arb.slots.get k = some { b with held := b.held &&& ~~~taken } ∧ statusSet t .announce) ∧
          (∀ j : Nat, victim ≠ some k → b.held &&& taken ≠ 0 → b.held &&& ~~~taken = 0 → b.state = .active j →
            t.arb.slots.get k = some (ended b .zonesLost) ∧ t.arb.buses[j]? = some none ∧ statusSet t .announce)) ∧
        (∀ j : Nat, j ≠ bus →
          (∀ k b, s.arb.slots.get k = some b → b.state = .active j → b.held &&& taken = 0 ∨ b.held &&& ~~~taken ≠ 0) →
          t.arb.buses[j]? = s.arb.buses[j]?) ∧
        (∀ z, mem taken z = false → (∀ v b, victim = some v → s.arb.slots.get v = some b → mem b.held z = false) →
          t.zones.get z = s.zones.get z) ∧
        (∀ v b z x, victim = some v → s.arb.slots.get v = some b → mem b.held z = true → mem taken z = false → s.zones.get z = some x →
          ∃ y, t.zones.get z = some y ∧ y.claim = none ∧ y.alertDone = false ∧ (x.bell.isDeferred = false → y.bell = x.bell) ∧
            (∀ q u start length, x.bell = .deferred q u start length →
              y.bell = if thresholdReached x.config.bellThreshold s.modes.effective = true then .idle
                else .sounding q u (16 * u) ((x.tagCounter + 1) % 16))) ∧
        t.port = (answered s 19 (if clamped then .clamped else .ok) (.announced n (.active bus) taken)).port ∧
        t.time = s.time ∧ t.store = s.store ∧ t.calls = s.calls ∧ t.lines = s.lines ∧ t.modes = s.modes ∧ t.link = s.link)) ∧
  (∀ (n bus : Nat) (a : Announcement) (s t : State), s.resetHeld = false → ClaimsLaw s → LiveLaw s → TablesLaw s →
    s.arb.slots.get n = some a → a.state = .active bus → exec (.release n) s = .next t →
    let opened (z : Nat) : Prop := ∃ x, s.zones.get z = some x ∧ (x.claim = none ∨ mem a.held z = true)
    (∀ m w, t.arb.slots.get m = some w → (w.state = .waiting → ¬ Grantable t w) ∧
      (∀ j z x, w.state = .active j → w.coverage = .any → mem w.requested z = true → t.zones.get z = some x → x.claim ≠ none)) ∧
    (∀ m w, m ≠ n → s.arb.slots.get m = some w → (∀ k b, s.arb.slots.get k = some b → b.live = true → k = n ∨ k = m) →
      (∀ j, w.state = .active j → w.coverage = .any → ∃ held, t.arb.slots.get m = some { w with held := held } ∧
        (∀ z, mem held z = true ↔ mem w.held z = true ∨ (mem w.requested z = true ∧ opened z)) ∧
        ∀ z, mem w.requested z = true → opened z → ∃ y, t.zones.get z = some y ∧
          y.claim = some { record := m, bus := j, talkBack := w.talkBack }) ∧
      (∀ j, w.state = .waiting → (∀ z, mem w.requested z = true → s.zones.get z ≠ none) →
        j = (if w.priority = .emergency then 0 else 1) →
        t.arb.slots.get m = some { w with state := .active j, held := w.requested, startSecond := some s.time.counter } ∧
        t.arb.buses[j]? = some (some { record := m, source := w.source }) ∧ statusSet t .announce ∧
        (∀ z, mem w.requested z = true → ∃ y, t.zones.get z = some y ∧
          y.claim = some { record := m, bus := j, talkBack := w.talkBack }) ∧
        t.calls = { s.calls with calls := s.calls.calls.filter (fun x => decide (w.answering ≠ some x.zone)) })))

/-- R109, R112, R117, R119: the refusals of ANNOUNCE in their order, and a record that cannot be granted because its coverage is ALL and a zone
of its set is held at its priority or above: it waits, holding nothing; with a wait limit of 0 it ends WaitExpired at once, with an
ANNOUNCE event.
That a refused request has a reply without a body is the model's choice (log 9). -/
def Obligations.AnnounceRefusesOrWaits : Prop :=
  ∀ (f : AnnounceFields) (s : State), s.resetHeld = false →
    let reply (r : ResultCode) : Prop := exec (.announce f) s = .next (answered s 19 r .empty)
    (3 < f.source ∨ 3 < f.priority ∨ 1 < f.coverage → reply .range) ∧
    (∀ p, f.source ≤ 3 → f.coverage ≤ 1 → priorityOf f.priority = some p →
      let allowed : Prop := match s.modes.effective with
        | .normal | .quiet => True
        | .hold => p ≠ .routine
        | .drill => p = .urgent ∨ p = .emergency
        | .alarm => p = .emergency
      (¬ allowed → reply .modeRefused) ∧
      (allowed →
        ((∃ e ∈ s.arb.slots, e.2.live = true ∧ e.2.source = f.source) → reply .sourceBusy) ∧
        ((∀ e ∈ s.arb.slots, e.2.live = true → e.2.source ≠ f.source) →
          ((∀ n, n < 16 → s.arb.slots.get n ≠ none) → reply .full) ∧
          (∀ n, n < 16 → s.arb.slots.get n = none → (∀ k, k < n → s.arb.slots.get k ≠ none) →
            (f.zones = 0 ∨ (∃ z, mem f.zones z = true ∧ s.zones.get z = none) ∨
                (f.talkBack = true ∧ ∃ z z', mem f.zones z = true ∧ mem f.zones z' = true ∧ z ≠ z') → reply .range) ∧
            (∀ z x cl b, f.zones ≠ 0 → (∀ z, mem f.zones z = true → s.zones.get z ≠ none) →
              (f.talkBack = true → ∀ z z', mem f.zones z = true → mem f.zones z' = true → z = z') →
              coverageOf f.coverage = some .all → mem f.zones z = true → s.zones.get z = some x → x.claim = some cl →
              s.arb.slots.get cl.record = some b → p.rank ≤ b.priority.rank →
              ∃ (a : Announcement) (t : State), exec (.announce f) s = .next t ∧
                a = { source := f.source, priority := p, coverage := .all, requested := f.zones, held := 0, state := .waiting
                      arrivalSecond := s.time.counter, startSecond := none, waitLimit := min 60 f.waitLimit
                      talkBack := f.talkBack, answering := none
                      maxDuration := if f.maxDuration = 0 then (if p = .emergency then none else some 600)
                        else some (min 600 f.maxDuration) } ∧
                (∀ k, k ≠ n → t.arb.slots.get k = s.arb.slots.get k) ∧ t.arb.buses = s.arb.buses ∧ t.zones = s.zones ∧
                t.calls = s.calls ∧
                (f.waitLimit ≠ 0 → t.arb.slots.get n = some a ∧ t.arb.arrival = s.arb.arrival ++ [n] ∧ t.attn = s.attn) ∧
                (f.waitLimit = 0 → t.arb.slots.get n = some { a with state := .ended .waitExpired s.time.counter s.time.stamp } ∧
                  statusSet t .announce ∧ (n ∉ s.arb.arrival → t.arb.arrival = s.arb.arrival)) ∧
                t = { s with arb := t.arb, attn := t.attn, port := t.port })))))

/-- R114 to R118, R120, R121, R131: how records end. RELEASE and RETIRE with their refusals; a live record ends Released with its zones, its bus
and its source given up, an Ended one is left as it is; the maximum durations that have expired end Expired together; a wait deadline that
has expired ends WaitExpired, with a CALL event for an answering record; an Ended record leaves its slot after 30 seconds.
That an expiry before its time changes nothing (log 5) and that a refused RELEASE has a reply without a body (log 9) are the model's choice. -/
def Obligations.AnnouncementsEnd : Prop :=
  ∀ (n : Nat) (s : State), s.resetHeld = false →
    let ended (a : Announcement) (r : EndReason) : Announcement := { a with state := .ended r s.time.counter s.time.stamp, held := 0 }
    (15 < n → exec (.release n) s = .next (answered s 20 .range .empty) ∧
      exec (.retireAnnouncement n) s = .next (answered s 3 .range (.key (.announcement n)))) ∧
    (n ≤ 15 → s.arb.slots.get n = none → exec (.release n) s = .next (answered s 20 .notFound .empty) ∧
      exec (.retireAnnouncement n) s = .next (answered s 3 .notFound (.key (.announcement n)))) ∧
    (∀ a r at_ civil, n ≤ 15 → s.arb.slots.get n = some a → a.state = .ended r at_ civil →
      exec (.release n) s = .next (answered s 20 .ok (.released a.state)) ∧
      exec (.retireAnnouncement n) s = .next (answered
        { s with arb := { s.arb with slots := s.arb.slots.filter (fun e => e.1 != n) } } 3 .ok (.key (.announcement n)))) ∧
    (∀ a, n ≤ 15 → s.arb.slots.get n = some a → a.live = true →
      ∃ t, exec (.release n) s = .next t ∧ t.arb.slots.get n = some (ended a .released) ∧
        t.port = (answered s 20 .ok (.released (ended a .released).state)).port ∧
        ((∀ k b, s.arb.slots.get k = some b → b.live = true → k = n) →
          (∀ k, k ≠ n → t.arb.slots.get k = s.arb.slots.get k) ∧
          (∀ b : Nat, t.arb.buses[b]? = if a.state = .active b ∧ b < 4 then some none else s.arb.buses[b]?) ∧
          (∀ z, mem a.held z = false → t.zones.get z = s.zones.get z) ∧
          (∀ z x, mem a.held z = true → s.zones.get z = some x → ∃ y, t.zones.get z = some y ∧ y.claim = none ∧ y.alertDone = false ∧
            (x.bell.isDeferred = false → y.bell = x.bell) ∧
            (∀ p u start length, x.bell = .deferred p u start length →
              y.bell = if thresholdReached x.config.bellThreshold s.modes.effective = true then .idle
                else .sounding p u (16 * u) ((x.tagCounter + 1) % 16))) ∧ t.calls = s.calls) ∧
        ∃ u, exec (.retireAnnouncement n) s = .next u ∧ u.arb.slots.get n = none ∧ u.zones = t.zones ∧ u.arb.buses = t.arb.buses ∧
          u.port = (answered s 3 .ok (.key (.announcement n))).port) ∧
    (∃ t, exec .maximumDurationExpiry s = .next t ∧
      (∀ a b m start, s.arb.slots.get n = some a → a.state = .active b → a.maxDuration = some m → a.startSecond = some start →
        m ≤ (s.time.counter - start).toNat → t.arb.slots.get n = some (ended a .expired) ∧ statusSet t .announce) ∧
      ((∀ e ∈ s.arb.slots, ∀ b m start, e.2.state = .active b → e.2.maxDuration = some m → e.2.startSecond = some start →
        (s.time.counter - start).toNat < m) → t = s)) ∧
    (∀ a, s.arb.slots.get n = some a → a.state = .waiting → a.held = 0 →
      ((s.time.counter - a.arrivalSecond).toNat < a.waitLimit → exec (.waitDeadlineExpiry n) s = .next s) ∧
      (a.waitLimit ≤ (s.time.counter - a.arrivalSecond).toNat → ∃ t, exec (.waitDeadlineExpiry n) s = .next t ∧
        t.arb.slots.get n = some (ended a .waitExpired) ∧ (∀ k, k ≠ n → t.arb.slots.get k = s.arb.slots.get k) ∧
        t.arb.buses = s.arb.buses ∧ statusSet t .announce ∧ (a.answering.isSome = true → statusSet t .call) ∧
        t = { s with arb := t.arb, attn := t.attn })) ∧
    (∀ a r at_ civil, s.arb.slots.get n = some a → a.state = .ended r at_ civil →
      (30 ≤ (s.time.counter - at_).toNat → exec (.automaticRetirement n) s = .next
        { s with arb := { s.arb with slots := s.arb.slots.filter (fun e => e.1 != n) } }) ∧
      ((s.time.counter - at_).toNat < 30 → exec (.automaticRetirement n) s = .next s))

/-- R129, R130, R112: ANSWER CALL: its refusals in their order; granted at once on a free zone with a free bus among 1 to 3, when the zone's call
is retired; and waiting, with the call kept, while the zone is held at Office priority or above.
That a refused request has a reply without a body is the model's choice (log 9). -/
def Obligations.AnswerCallAnnounces : Prop :=
  ∀ (z : Nat) (s : State), s.resetHeld = false →
    let reply (r : ResultCode) : Prop := exec (.answerCall z) s = .next (answered s 21 r .empty)
    (63 < z → reply .range) ∧
    (z ≤ 63 → (∀ c ∈ s.calls.calls, c.zone ≠ z) → reply .notFound) ∧
    (z ≤ 63 → (∃ c ∈ s.calls.calls, c.zone = z) →
      (3 ≤ s.modes.effective.level → reply .modeRefused) ∧
      (s.modes.effective.level < 3 →
        ((∃ e ∈ s.arb.slots, e.2.live = true ∧ e.2.source = 0) → reply .sourceBusy) ∧
        ((∀ e ∈ s.arb.slots, e.2.live = true → e.2.source ≠ 0) →
          ((∀ n, n < 16 → s.arb.slots.get n ≠ none) → reply .full) ∧
          (∀ n x (a : Announcement), n < 16 → s.arb.slots.get n = none → (∀ k, k < n → s.arb.slots.get k ≠ none) → s.zones.get z = some x →
            a = { source := 0, priority := .office, coverage := .all, requested := single 64 z, held := 0, state := .waiting
                  arrivalSecond := s.time.counter, startSecond := none, maxDuration := some 300, waitLimit := 30, talkBack := true
                  answering := some z } →
            (∀ bus : Nat, ClaimsLaw s → x.claim = none → 1 ≤ bus → bus ≤ 3 → s.arb.buses[bus]? = some none →
              (∀ b : Nat, 1 ≤ b → b < bus → s.arb.buses[b]? ≠ some none) →
              ∃ t y, exec (.answerCall z) s = .next t ∧
                t.arb.slots.get n = some { a with state := .active bus, held := single 64 z, startSecond := some s.time.counter } ∧
                t.zones.get z = some y ∧ y.claim = some { record := n, bus := bus, talkBack := true } ∧
                t.calls = { s.calls with calls := s.calls.calls.filter (fun c => c.zone != z) } ∧ t.attn = s.attn ∧
                t.port = (answered s 21 .ok (.announced n (.active bus) (single 64 z))).port) ∧
            (∀ cl b, x.claim = some cl → s.arb.slots.get cl.record = some b → 1 ≤ b.priority.rank →
              ∃ t, exec (.answerCall z) s = .next t ∧ t.arb.slots.get n = some a ∧ t.calls = s.calls ∧ t.zones = s.zones ∧
                t.port = (answered s 21 .ok (.announced n .waiting 0)).port)))))

/-- R132 whole: CLEAR CALL and RETIRE of the CALL table: RANGE above 63, NOT_FOUND without a call; otherwise the zone's call is retired, the
calls behind close up, the overflow flag is cleared, and nothing else changes, a live announcement answering the zone among it; a later
grant of that announcement then finds no call. AMEND of the CALL table does not decode.
That a refused CLEAR CALL has a reply without a body is the model's choice (log 9). -/
def Obligations.ClearCallRetiresTheCall : Prop :=
  (∀ (z : Nat) (s : State), s.resetHeld = false →
    (63 < z → exec (.clearCall z) s = .next (answered s 22 .range .empty) ∧
      exec (.retireCall z) s = .next (answered s 3 .range (.key (.call z)))) ∧
    (z ≤ 63 → (∀ c ∈ s.calls.calls, c.zone ≠ z) → exec (.clearCall z) s = .next (answered s 22 .notFound .empty) ∧
      exec (.retireCall z) s = .next (answered s 3 .notFound (.key (.call z)))) ∧
    (∀ u : State, z ≤ 63 → (∃ c ∈ s.calls.calls, c.zone = z) →
      u = { s with calls := { calls := s.calls.calls.filter (fun c => c.zone != z), overflow := false } } →
      exec (.clearCall z) s = .next (answered u 22 .ok .empty) ∧ exec (.retireCall z) s = .next (answered u 3 .ok (.key (.call z))) ∧
      u.retireCallOf (some z) = u)) ∧
  (∀ body : List Byte, decodeBody 2 13 body = none)

/-! ### Modes, drills and evacuation -/

/-- R60, R119, R134, R135, R144, R146: SET BASE MODE and START DRILL: their refusals, the mode that stands after them, and what a rise of the
effective mode does: the live announcements it does not allow end ModeEnded, and no deferral stays on a forced bell. A drill's record is
in Sounding with the evacuation tone on the held zones of its program, each with its next start tag.
That a refused request has a reply without a body is the model's choice (log 9). -/
def Obligations.ModesRise : Prop :=
  ∀ (m program : Nat) (s : State), s.resetHeld = false →
    let rises (t : State) : Prop := s.modes.effective.level < t.modes.effective.level →
      (∀ n a, s.arb.slots.get n = some a → a.live = true → modeAllows t.modes.effective a.priority = false →
        t.arb.slots.get n = some { a with state := .ended .modeEnded s.time.counter s.time.stamp, held := 0 } ∧ statusSet t .announce) ∧
      (∀ z y, t.zones.get z = some y → y.bell.isDeferred = true → thresholdReached y.config.bellThreshold t.modes.effective = false)
    let formed (t : State) : Prop := t.modes.effective.level = max t.modes.base.level (max
      (match t.modes.record with
        | some r => if r.kind = .drill then 3 else 4
        | none => 0) (if t.modes.panel = .alarm then 4 else 0))
    (2 < m → exec (.setBaseMode m) s = .next (answered s 18 .range .empty)) ∧
    (m ≤ 2 → ∃ t, exec (.setBaseMode m) s = .next t ∧ t.modes.base.level = m ∧ t.modes.record = s.modes.record ∧
      t.modes.panel = s.modes.panel ∧ t.modes.programs = s.modes.programs ∧ formed t ∧ rises t ∧
      (t.modes.effective.level ≤ s.modes.effective.level → t = { s with modes := t.modes, port := t.port }) ∧
      t.port = (answered s 18 .ok (.modes t.modes.base t.modes.effective)).port) ∧
    (7 < program → exec (.startDrill program) s = .next (answered s 23 .range .empty)) ∧
    (program ≤ 7 → s.modes.programs.get program = none → exec (.startDrill program) s = .next (answered s 23 .notFound .empty)) ∧
    (program ≤ 7 → s.modes.programs.get program ≠ none →
      (s.modes.effective = .alarm → exec (.startDrill program) s = .next (answered s 23 .modeRefused .empty)) ∧
      (s.modes.effective ≠ .alarm → s.modes.record ≠ none → exec (.startDrill program) s = .next (answered s 23 .busy .empty)) ∧
      (∀ p, s.modes.effective ≠ .alarm → s.modes.record = none → s.modes.programs.get program = some p →
        ∃ t r d, exec (.startDrill program) s = .next t ∧ t.modes.record = some r ∧ r.kind = .drill ∧ r.program = some program ∧
          r.phase = .sounding ∧ r.startSecond = s.time.counter ∧ r.startCivil = s.time.stamp ∧ r.overdue = false ∧
          r.musterLate = false ∧ r.ampFaults = 0 ∧ r.fixedResult = none ∧ (∀ b : Nat, (r.clears[b]?.getD none) = none) ∧
          r.musteredAt = (if p.fields.muster = 0 then some 0 else none) ∧
          r.drive = some d ∧ d.tone = .evacuation ∧ d.ticks = 16 * p.fields.sounding ∧
          (∀ z x, mem p.fields.zones z = true → s.zones.get z = some x → d.tags.get z = some ((x.tagCounter + 1) % 16)) ∧
          (∀ z, mem p.fields.zones z = false ∨ s.zones.get z = none → d.tags.get z = none) ∧
          t.modes.base = s.modes.base ∧ t.modes.panel = s.modes.panel ∧ t.modes.programs = s.modes.programs ∧ formed t ∧ rises t ∧
          t.port = (answered s 23 .ok (.evacuation (some r))).port ∧ t.time = s.time ∧ t.calls.overflow = s.calls.overflow ∧
          t.lines = s.lines ∧ t.link = s.link ∧ t.store = s.store))

/-- R146 to R150: the phases of an evacuation record. SILENCE and the end of the evacuation tone lift the drive; ALL CLEAR fixes the result and
begins the all-clear tone, whose end closes the record into its program's last result; MARK BUILDING clears a muster building, the last of
which completes the muster; the two intervals set their flags while the muster is not complete; with the refusals of each.
That an event before its time changes nothing (log 5) and that a refused request has a reply without a body (log 9) are the model's
choice. -/
def Obligations.EvacuationPhases : Prop :=
  (∀ (b : Nat) (s : State), s.resetHeld = false → s.modes.record = none →
    exec .silence s = .next (answered s 24 .notFound .empty) ∧ exec .allClear s = .next (answered s 25 .notFound .empty) ∧
    exec (.markBuilding b) s = .next (answered s 26 (if 7 < b then .range else .notFound) .empty) ∧
    exec .evacuationToneEnd s = .next s ∧ exec .allClearToneEnd s = .next s ∧ exec .evacuationTargetExpiry s = .next s ∧
    exec .musterDeadlineExpiry s = .next s) ∧
  (∀ (b elapsed : Nat) (r : EvacRecord) (s : State), s.resetHeld = false → s.modes.record = some r →
    elapsed = (s.time.counter - r.startSecond).toNat →
    let withRecord (q : EvacRecord) : State := { s with modes := { s.modes with record := some q } }
    let lifted : EvacRecord := { r with drive := none, phase := if r.musteredAt.isSome then .mustered else .sweep }
    let closed (t : State) (result : EvacResult) : Prop := t.modes.record = none ∧ statusSet t .evac ∧
      t.modes.effective.level = max s.modes.base.level (if s.modes.panel = .alarm then 4 else 0) ∧
      ∀ p q, r.program = some p → s.modes.programs.get p = some q → t.modes.programs.get p = some { fields := q.fields, lastResult := some {
        kind := r.kind, startCivil := r.startCivil, endCivil := s.time.stamp, result := result, overdue := r.overdue,
        musterLate := r.musterLate, musteredAt := r.musteredAt, clears := r.clears, ampFaults := r.ampFaults } }
    (r.phase = .sounding → exec .silence s = .next (answered (withRecord lifted) 24 .ok (.evacuation (some lifted)))) ∧
    (r.phase ≠ .sounding → exec .silence s = .next (answered s 24 .ok (.evacuation (some r)))) ∧
    (∀ d, r.drive = some d →
      (r.phase = .sounding → d.ticks = 0 → exec .evacuationToneEnd s = .next (withRecord lifted)) ∧
      (r.phase ≠ .sounding ∨ d.ticks ≠ 0 → exec .evacuationToneEnd s = .next s) ∧
      (r.phase ≠ .closing ∨ d.ticks ≠ 0 → exec .allClearToneEnd s = .next s) ∧
      (∀ result, r.phase = .closing → d.ticks = 0 → r.fixedResult = some result → result ≠ .interrupted →
        ∃ t, exec .allClearToneEnd s = .next t ∧ closed t result)) ∧
    (r.kind = .alarm → s.modes.panel = .alarm → exec .allClear s = .next (answered s 25 .panelActive .empty)) ∧
    (r.kind = .drill ∨ s.modes.panel = .normal →
      (r.phase = .closing → exec .allClear s = .next (answered s 25 .ok (.evacuation (some r)))) ∧
      (∀ result, r.phase ≠ .closing → result = (if r.musteredAt.isSome then EvacResult.completed else .endedEarly) →
        (r.program = none → ∃ t, exec .allClear s = .next t ∧ closed t result ∧ t.port = (answered s 25 .ok (.evacuation none)).port) ∧
        (∀ p q, r.program = some p → s.modes.programs.get p = some q →
          ∃ t d, exec .allClear s = .next t ∧ t.modes.record = some { r with phase := .closing, fixedResult := some result, drive := some d } ∧
            d.tone = .allClear ∧ d.ticks = 16 * q.fields.allClearDuration ∧
            (∀ z x, mem q.fields.zones z = true → s.zones.get z = some x → d.tags.get z = some ((x.tagCounter + 1) % 16) ∧
              t.zones.get z = some { x with tagCounter := (x.tagCounter + 1) % 16 }) ∧
            (∀ z, mem q.fields.zones z = false → t.zones.get z = s.zones.get z) ∧
            t.port = (answered s 25 .ok (.evacuation t.modes.record)).port ∧
            t = { s with zones := t.zones, modes := { s.modes with record := t.modes.record }, port := t.port }))) ∧
    (7 < b → exec (.markBuilding b) s = .next (answered s 26 .range .empty)) ∧
    (b ≤ 7 → (∀ p q, r.program = some p → s.modes.programs.get p = some q → mem q.fields.muster b = false) →
      exec (.markBuilding b) s = .next (answered s 26 .range .empty)) ∧
    (∀ p q, b ≤ 7 → r.program = some p → s.modes.programs.get p = some q →
      (mem q.fields.muster b = true →
        (r.phase = .closing → exec (.markBuilding b) s = .next (answered s 26 .busy .empty)) ∧
        (r.phase ≠ .closing → (r.clears[b]?.getD none) ≠ none →
          exec (.markBuilding b) s = .next (answered s 26 .ok (.evacuation (some r)))) ∧
        (∀ marked : EvacRecord, r.phase ≠ .closing → (r.clears[b]?.getD none) = none →
          marked = { r with clears := r.clears.setIfInBounds b (some { second := elapsed, manual := true }) } →
          ((r.musteredAt ≠ none ∨ (∃ k, k ≠ b ∧ mem q.fields.muster k = true ∧ (r.clears[k]?.getD none) = none)) →
            exec (.markBuilding b) s = .next (answered (withRecord marked) 26 .ok (.evacuation (some marked)))) ∧
          (∀ done : EvacRecord, r.musteredAt = none →
            (∀ k, k ≠ b → mem q.fields.muster k = true → (r.clears[k]?.getD none) ≠ none) →
            done = { marked with musteredAt := some elapsed, phase := if r.phase = .sweep then .mustered else r.phase } →
            exec (.markBuilding b) s = .next (answered ((withRecord done).raise .evac) 26 .ok (.evacuation (some done)))))) ∧
      (q.fields.target ≤ elapsed → r.musteredAt = none → r.phase ≠ .closing → r.overdue = false →
        exec .evacuationTargetExpiry s = .next ((withRecord { r with overdue := true }).raise .evac)) ∧
      (elapsed < q.fields.target ∨ r.musteredAt ≠ none ∨ r.phase = .closing ∨ r.overdue = true →
        exec .evacuationTargetExpiry s = .next s) ∧
      (q.fields.deadline ≤ elapsed → r.musteredAt = none → r.phase ≠ .closing → r.musterLate = false →
        exec .musterDeadlineExpiry s = .next ((withRecord { r with musterLate := true }).raise .evac)) ∧
      (elapsed < q.fields.deadline ∨ r.musteredAt ≠ none ∨ r.phase = .closing ∨ r.musterLate = true →
        exec .musterDeadlineExpiry s = .next s)))

/-- R137, R138, R139, R145: the panel window and the drill key. Before its 32 ticks a window is not judged; then its run is counted, chatter
raises PANEL, a second alarm-indicating window makes the panel Alarm with an Alarm record, and the last quiet window of the clear-window
count makes it Normal. A short press is reported; a long press is reported in Alarm, starts the drill of program 0 when it may, or is
reported when it may not.
That a window, a short press or a long press before its time changes nothing is the model's choice (log 5). -/
def Obligations.PanelAndKey : Prop :=
  ∀ (s : State), s.resetHeld = false →
    let indicating : Prop := s.modes.lastSample = true ∨ 1 ≤ s.modes.edges
    let judged (m : ModeControl) : State :=
      ({ s with modes := { m with windowTicks := 0, edges := 0 } } : State).raiseIf (decide (9 ≤ s.modes.edges)) .panel
    let fresh (r : EvacRecord) : Prop := r.kind = .alarm ∧ r.startSecond = s.time.counter ∧ r.startCivil = s.time.stamp ∧
      r.panelCleared = false ∧ r.overdue = false ∧ r.musterLate = false ∧ r.ampFaults = 0 ∧ r.drive = none ∧
      (∀ p, s.modes.programs.get s.cal.site.alarmProgram = some p → r.program = some s.cal.site.alarmProgram ∧
        r.phase = (if p.fields.muster = 0 then .mustered else .sweep) ∧ r.musteredAt = if p.fields.muster = 0 then some 0 else none) ∧
      (s.modes.programs.get s.cal.site.alarmProgram = none → r.program = none ∧ r.phase = .mustered ∧ r.musteredAt = some 0)
    (s.modes.windowTicks < 32 → exec .panelWindowEnd s = .next s) ∧
    (32 ≤ s.modes.windowTicks →
      (s.modes.panel = .normal → ¬ indicating → exec .panelWindowEnd s = .next (judged { s.modes with alarmRun := 0 })) ∧
      (s.modes.panel = .normal → indicating → s.modes.alarmRun = 0 →
        exec .panelWindowEnd s = .next (judged { s.modes with alarmRun := 1 })) ∧
      (s.modes.panel = .alarm → indicating → exec .panelWindowEnd s = .next (judged { s.modes with quietRun := 0 })) ∧
      (s.modes.panel = .alarm → ¬ indicating → s.modes.quietRun + 1 < s.cal.site.clearWindows →
        exec .panelWindowEnd s = .next (judged { s.modes with quietRun := s.modes.quietRun + 1 })) ∧
      (s.modes.panel = .normal → indicating → 1 ≤ s.modes.alarmRun →
        ∃ t r, exec .panelWindowEnd s = .next t ∧ t.modes.panel = .alarm ∧ t.modes.alarmRun = 0 ∧ t.modes.windowTicks = 0 ∧
          t.modes.edges = 0 ∧ t.modes.effective = .alarm ∧ statusSet t .panel ∧ t.modes.record = some r ∧
          (s.modes.record = none → fresh r ∧ statusSet t .evac) ∧
          (∀ q, s.modes.record = some q → q.kind = .drill ∨ q.phase = .closing → fresh r ∧ statusSet t .evac ∧
            ∀ p x, q.program = some p → s.modes.programs.get p = some x →
              ∃ l, t.modes.programs.get p = some { x with lastResult := some l } ∧ l.result = .superseded ∧ l.kind = q.kind) ∧
          (∀ q, s.modes.record = some q → q.kind = .alarm → q.phase ≠ .closing → r = { q with panelCleared := false })) ∧
      (s.modes.panel = .alarm → ¬ indicating → s.cal.site.clearWindows ≤ s.modes.quietRun + 1 →
        ∃ t, exec .panelWindowEnd s = .next t ∧ t.modes.panel = .normal ∧ t.modes.quietRun = 0 ∧ t.modes.windowTicks = 0 ∧
          t.modes.edges = 0 ∧ statusSet t .panel ∧ t.modes.record = s.modes.record.map (fun r =>
            if r.kind = .alarm then { r with panelCleared := true } else r))) ∧
    (∀ n, s.modes.key = .released n →
      exec .keyShortPress s = .next (({ s with modes := { s.modes with key := .ready } } : State).raise .key)) ∧
    ((∀ n, s.modes.key ≠ .released n) → exec .keyShortPress s = .next s) ∧
    ((∀ n, s.modes.key = .timing n → n < 48) → exec .keyLongPress s = .next s) ∧
    (∀ n (spent : State), s.modes.key = .timing n → 48 ≤ n → spent = { s with modes := { s.modes with key := .spent } } →
      (s.modes.effective = .alarm → exec .keyLongPress s = .next (spent.raise .key)) ∧
      (s.modes.effective ≠ .alarm → s.modes.record = none → s.cal.site.keyEnable = true → s.modes.programs.get 0 ≠ none →
        ∃ t r, exec .keyLongPress s = .next t ∧ t.modes.key = .spent ∧ statusSet t .evac ∧ t.modes.record = some r ∧ r.kind = .drill ∧
          r.program = some 0 ∧ r.phase = .sounding ∧ t.port = s.port) ∧
      (s.modes.effective ≠ .alarm → s.modes.record = none → s.cal.site.keyEnable = false ∨ s.modes.programs.get 0 = none →
        exec .keyLongPress s = .next (spent.raise .key)) ∧
      (∀ r, s.modes.effective ≠ .alarm → s.modes.record = some r →
        (r.kind = .drill → r.phase ≠ .closing → exec .keyLongPress s = .next (spent.takeAllClear r)) ∧
        (r.kind = .alarm ∨ r.phase = .closing → exec .keyLongPress s = .next (spent.raise .key))))

/-! ### Building link -/

/-- R155, R156: POLL and PROBE. Once a tick has begun a slot and the exchange before it is over, a probe slot (counter 0, some present unit
Lost) goes to the Lost unit next after the last probed, any other slot to the unit next after the last polled that is present and not
Lost; the frame carries the address, the campus time and mode, and in a poll the building's zones with their delivered values and the
lowest pending pattern still held. A slot with no such unit passes.
That POLL and PROBE change nothing when no slot is open to them is the model's choice (log 5). -/
def Obligations.SlotsPollAndProbe : Prop :=
  ∀ (n : Nat) (x : Building) (s : State), s.resetHeld = false → s.link.buildings[n]? = some x →
    let lost (k : Nat) : Prop := ∃ y : Building, s.link.buildings[k]? = some y ∧ y.present = true ∧ y.link = .lost
    let answers (k : Nat) : Prop := ∃ y : Building, s.link.buildings[k]? = some y ∧ y.present = true ∧ y.link ≠ .lost
    let place (mark : Option Nat) (k : Nat) : Nat := match mark with
      | none => k
      | some m => (k + 7 - m) % 8
    let ready : Prop := s.link.slotOpen = true ∧ s.link.exchange = none
    let probing : Prop := s.link.slotCounter = 0 ∧ ∃ k, lost k
    (¬ ready ∨ probing → exec .poll s = .next s) ∧
    (¬ ready ∨ ¬ probing → exec .probe s = .next s) ∧
    (ready → ¬ probing → (∀ k, ¬ answers k) → exec .poll s = .next { s with link := { s.link with slotOpen := false } }) ∧
    (ready → ¬ probing → (∀ m, s.link.lastPolled = some m → m < 8) → answers n →
      (∀ k, answers k → place s.link.lastPolled n ≤ place s.link.lastPolled k) →
      ∃ t f y, exec .poll s = .next t ∧ t.link.lastFrame = some f ∧ t.link.buildings[n]? = some y ∧
        f.address = n ∧ f.day = s.time.civil.day ∧ f.second = s.time.civil.second ∧ f.valid = s.time.valid ∧
        f.mode = s.modes.effective ∧
        f.zones = (s.zones.filter (fun e => decide (e.2.config.building = n))).map (fun e => (e.1, deliveredOf s e.1 e.2)) ∧
        (∀ k, k < 16 → mem y.pending k = (mem x.pending k && decide (k ∈ s.store.patterns.keys))) ∧
        (∀ k p, mem y.pending k = true → (∀ j, j < k → mem y.pending j = false) → s.store.patterns.get k = some p →
          f.pattern = some (k, p.steps) ∧ y.inFlight = some { pattern := k, amended := false }) ∧
        ((∀ k, mem y.pending k = false) → f.pattern = none ∧ y.inFlight = none) ∧
        y = { x with pending := y.pending, inFlight := y.inFlight } ∧
        t = { s with link := { s.link with buildings := t.link.buildings, slotOpen := false, lastPolled := some n,
                                           exchange := some { building := n, probe := false }, lastFrame := some f } }) ∧
    (ready → probing → (∀ m, s.link.lastProbed = some m → m < 8) → lost n →
      (∀ k, lost k → place s.link.lastProbed n ≤ place s.link.lastProbed k) →
      exec .probe s = .next { s with link := { s.link with
        slotOpen := false, lastProbed := some n, exchange := some { building := n, probe := true }
        lastFrame := some { address := n + 8, day := s.time.civil.day, second := s.time.civil.second, valid := s.time.valid
                            mode := s.modes.effective, zones := [], pattern := none } } })

/-- R98, R99, R100, R127, R128, R147, R157 to R160: the end of an exchange. A report from another address, out of its encodings, or not
complete before the slot ends counts as a miss; the third miss in a row makes the unit Lost, with a LINK event, and degrades its zones; a
good report makes it Online with its misses cleared, stores its levels and the call eligibility, hands each held zone of the building its
supervision count, and takes the pattern in flight off the pending set when the echo matches. When the unit's levels were known, a report
hands on its presses in order of zone number, a rising clear level, which clears the building in the evacuation record and may complete the
muster, and a rising amplifier fault, which joins the record's set; from the first report none of these is taken.
That a report or a miss without an exchange changes nothing (log 5), that the command of a report which is not good is a miss (log 12), and
that a zone number above 63 or an echo from 16 to 254 lies outside its encoding (log 21) are the model's choice. -/
def Obligations.ExchangesEnd : Prop :=
  (∀ (x : Zone) (count : Nat), (x.takeCount count).config = x.config ∧
    (x.path = .good → count ≤ x.config.upper → x.takeCount count = x) ∧
    (x.config.upper < count → x.takeCount count = { x with
      path := .degraded, accumulator := 0, reports := 0, firstWindow := decide (x.path = .good) }) ∧
    (∀ acc, x.path = .degraded → count ≤ x.config.upper → acc = min 65535 (x.accumulator + count) →
      (x.reports + 1 < (if x.firstWindow then 4 else x.config.window) →
        x.takeCount count = { x with accumulator := acc, reports := x.reports + 1 }) ∧
      ((if x.firstWindow then 4 else x.config.window) ≤ x.reports + 1 → x.takeCount count = { x with
        path := (if acc ≤ x.config.lower then .good else .degraded), accumulator := 0, reports := 0, firstWindow := false }))) ∧
  (∀ (s : State) (r : Report), s.resetHeld = false → s.link.exchange = none →
    exec .responseMiss s = .next s ∧ exec (.goodReport r) s = .next s) ∧
  (∀ (s : State) (n : Nat) (probe : Bool) (b : Building) (r : Report), s.resetHeld = false →
    s.zones.Sorted →
    s.link.exchange = some { building := n, probe := probe } → s.link.buildings[n]? = some b →
    (b.link = .lost → exec .responseMiss s = .next { s with link := { s.link with exchange := none } }) ∧
    (b.link ≠ .lost → b.misses < 2 → ∃ t, exec .responseMiss s = .next t ∧
      t.link.buildings[n]? = some { b with misses := b.misses + 1 } ∧ (∀ k : Nat, k ≠ n → t.link.buildings[k]? = s.link.buildings[k]?) ∧
      t = { s with link := { s.link with buildings := t.link.buildings, exchange := none } }) ∧
    (b.link ≠ .lost → 2 ≤ b.misses → ∃ t, exec .responseMiss s = .next t ∧
      t.link.buildings[n]? = some { b with misses := 3, link := .lost, levelsKnown := false, inFlight := none } ∧
      statusSet t .link ∧ t.link.exchange = none ∧
      (∀ z x, s.zones.get z = some x → ∃ y, t.zones.get z = some y ∧ y.config = x.config ∧ y.claim = x.claim ∧ y.aux = x.aux ∧
        (x.config.building ≠ n → y = x) ∧
        (x.config.building = n → y.path = .degraded ∧ y.accumulator = 0 ∧ y.reports = 0 ∧ y.firstWindow = true ∧
          (x.path = .good → statusSet t .zone ∧ (x.claim.isSome = true → x.alertDone = false → x.bell = .idle →
            y.alertDone = true ∧ y.bell = .sounding x.config.alertPattern x.config.alertDuration (16 * x.config.alertDuration)
              ((x.tagCounter + 1) % 16))))) ∧
      t.arb = s.arb ∧ t.calls = s.calls ∧ t.modes = s.modes ∧ t.port = s.port ∧ t.store = s.store) ∧
    (r.address ≠ n ∨ goodReportFrame r = false ∨ s.link.slotOpen = true → exec (.goodReport r) s = exec .responseMiss s) ∧
    (r.address = n → goodReportFrame r = true → s.link.slotOpen = false → ∃ t y, exec (.goodReport r) s = .next t ∧ t.link.exchange = none ∧
      t.link.buildings[n]? = some y ∧ y.present = b.present ∧ y.misses = 0 ∧ y.link = .online ∧ y.levelsKnown = true ∧
      y.clearLevel = r.clear ∧ y.ampFault = r.ampFault ∧ y.inFlight = none ∧ (b.link = .lost → statusSet t .link) ∧
      (∀ k, mem y.pending k = (if b.link = .lost then decide (k < 16 ∧ k ∈ s.store.patterns.keys) else mem b.pending k) ∨
        (mem y.pending k = false ∧ probe = false ∧ r.echo = some k ∧ b.inFlight = some { pattern := k, amended := false })) ∧
      (∀ g, probe = false → b.inFlight = some { pattern := g, amended := false } → r.echo = some g → mem y.pending g = false) ∧
      (∀ e x, e ∈ r.zones → s.zones.get e.zone = some x → x.config.building = n → ∃ w, t.zones.get e.zone = some w ∧
        w.path = (x.takeCount e.count).path ∧ w.accumulator = (x.takeCount e.count).accumulator ∧
        w.reports = (x.takeCount e.count).reports ∧ w.firstWindow = (x.takeCount e.count).firstWindow ∧
        mem y.callLevels e.zone = (e.level && decide (e.zone < 64)) ∧
        (w.path ≠ x.path → statusSet t .zone)) ∧
      (∀ z x, s.zones.get z = some x → x.config.building ≠ n → t.zones.get z = some x) ∧
      (∀ e x, e ∈ r.zones → s.zones.get e.zone = some x → x.config.building = n →
        mem y.eligible e.zone = (decide (x.config.kind = .room) && x.config.callSwitch)) ∧
      (∀ k, (∀ e x, e ∈ r.zones → e.zone = k → s.zones.get k = some x → x.config.building ≠ n) →
        mem y.callLevels k = mem b.callLevels k ∧ mem y.eligible k = mem b.eligible k) ∧
      (b.levelsKnown = false → t.calls = s.calls ∧ t.modes = s.modes) ∧
      (b.levelsKnown = true → ∃ l : List Nat, l.Pairwise (· < ·) ∧
        (∀ z, z ∈ l ↔ mem b.callLevels z = false ∧ mem b.eligible z = true ∧ (∃ e ∈ r.zones, e.zone = z ∧ e.level = true) ∧
          ∃ x, s.zones.get z = some x ∧ x.config.building = n ∧ x.config.kind = .room ∧ x.config.callSwitch = true) ∧
        t.calls = l.foldl (pressTaken s.time.stamp (decide (3 ≤ s.modes.effective.level))) s.calls ∧
        (∀ z ∈ l, (∀ c ∈ s.calls.calls, c.zone ≠ z) → statusSet t .call)) ∧
      t.modes = { s.modes with record := t.modes.record } ∧ (s.modes.record = none → t.modes.record = none) ∧
      (∀ q, b.levelsKnown = true → s.modes.record = some q → ∃ w : EvacRecord, t.modes.record = some w ∧
        w = { q with clears := w.clears, musteredAt := w.musteredAt, phase := w.phase, ampFaults := w.ampFaults } ∧
        (let muster (k : Nat) : Prop := ∃ p g, q.program = some p ∧ s.modes.programs.get p = some g ∧ mem g.fields.muster k = true
        let clearing : Prop := r.clear = true ∧ b.clearLevel = false ∧ muster n ∧ (q.clears[n]?.getD none) = none ∧ q.phase ≠ .closing
        let last : Prop := q.musteredAt = none ∧ ∀ k, k ≠ n → muster k → (q.clears[k]?.getD none) ≠ none
        let faulting : Prop := r.ampFault = true ∧ b.ampFault = false ∧ mem q.ampFaults n = false
        (∀ k : Nat, k ≠ n → w.clears[k]? = q.clears[k]?) ∧
        (clearing → w.clears[n]? = some (some { second := (s.time.counter - q.startSecond).toNat, manual := false })) ∧
        (clearing → last → w.musteredAt = some (s.time.counter - q.startSecond).toNat ∧
          w.phase = (if q.phase = .sweep then .mustered else q.phase) ∧ statusSet t .evac) ∧
        (¬ clearing → w.clears = q.clears) ∧
        (¬ (clearing ∧ last) → w.musteredAt = q.musteredAt ∧ w.phase = q.phase) ∧
        (faulting → (∀ k, mem w.ampFaults k = (mem q.ampFaults k || decide (k = n))) ∧ statusSet t .evac) ∧
        (¬ faulting → w.ampFaults = q.ampFaults) ∧
        (¬ faulting → ¬ (clearing ∧ last) → (mem t.attn.status EventClass.evac.number = mem s.attn.status EventClass.evac.number)))) ∧
      (∀ k : Nat, k ≠ n → t.link.buildings[k]? = s.link.buildings[k]?) ∧
      t.time = s.time ∧ t.cal = s.cal ∧ t.store = s.store ∧ t.lines = s.lines ∧ t.arb = s.arb ∧ t.port = s.port))

/-! ### Command port -/

/-- R170 whole: ATTENTION. The reply is OK with the status set as it stood and the enable set as it stands after; the members of the clear set
are cleared, and the enables take the enable set when one is given; a set with any of the bits 11 to 15 does not decode. -/
def Obligations.AttentionServes : Prop :=
  (∀ (clear : ClassSet) (enable : Option ClassSet) (s : State), s.resetHeld = false → ∃ a : Attention,
    exec (.attention clear enable) s = .next (answered { s with attn := a } 29 .ok (.attention s.attn.status a.enable)) ∧
    (∀ k, mem a.status k = (mem s.attn.status k && !mem clear k)) ∧
    (∀ e, enable = some e → a.enable = e) ∧ (enable = none → a.enable = s.attn.enable) ∧
    (clear = 0 → enable = none → a = s.attn)) ∧
  (∀ (w : Nat) (rest : List Byte), 2048 ≤ w → w < 65536 → decodeBody 29 0 (enc2 w ++ rest) = none) ∧
  (∀ (v w : Nat), 2048 ≤ w → w < 65536 → decodeBody 29 0 (enc2 v ++ 1 :: enc2 w) = none)

/-- R163, R164, R165, R168, R171: what the port makes of a frame, and the port's own commands. A frame whose first byte is neither 1 nor 2 is
ignored; kind 2 is a read frame; a request frame that finds the request buffer occupied is discarded; one cut short within a byte, or that
does not decode, is malformed, with its code as received, 0 when it is too short to hold one, and, where the frame of a record request is
whole, with the bytes of its key; and one that decodes is its request. A malformed request is answered MALFORMED with its code and key and
changes nothing; a discarded frame sets the request-lost flag and leaves the reply not ready (log 8); every byte driven during either is 0;
a read frame returns the marker and the reply's bytes, then zeros, and empties the buffer once its last byte has been clocked; READ STATUS
returns the state as it stands, each of its counts state by state.
Which malformed frames have a key to carry (log 9), that a frame of 3 or 4 bytes is long enough to hold a code, and that a frame without a
whole first byte is ignored (log 22), are the model's choice. -/
def Obligations.PortCommands : Prop :=
  (∀ (occupied whole : Bool) (bytes : List Byte), bytes.head? ≠ some 1 → bytes.head? ≠ some 2 →
    portCommand occupied whole bytes = none) ∧
  (∀ (occupied whole : Bool) (rest : List Byte), portCommand occupied whole (2 :: rest) = some (.readFrame rest.length)) ∧
  (∀ (whole : Bool) (rest : List Byte), portCommand true whole (1 :: rest) = some .requestFrameDiscarded) ∧
  (∀ (whole : Bool) (rest : List Byte), whole = false ∨ decodeRequest (1 :: rest) = none →
    ∃ key, portCommand false whole (1 :: rest) = some (.malformedRequest { code := (rest[1]?.getD 0).toNat, key := key }) ∧
      (whole = false ∨ checkedFrame (1 :: rest) = none → key = [])) ∧
  (∀ (code table : Nat) (key rest : List Byte), 1 ≤ code → code ≤ 4 → 1 ≤ table → table ≤ 13 → key.length + rest.length < 254 →
    key.length = (if table = 3 then 3 else if table = 2 ∨ table = 4 then 2 else if table = 11 then 0 else 1) +
      (if code = 4 then 1 else 0) →
    decodeRequest (requestFrame code table (key ++ rest)) = none →
    portCommand false true (requestFrame code table (key ++ rest)) = some (.malformedRequest { code := code, key := key })) ∧
  (∀ (rest : List Byte) (i : Instr), decodeRequest (1 :: rest) = some i → portCommand false true (1 :: rest) = some i) ∧
  (∀ (code : Nat) (key : List Byte) (s : State), s.resetHeld = false →
    exec (.malformedRequest { code := code, key := key }) s = .next (answered s code .malformed (.received key)) ∧
    (∀ r : Reply, r.body = .received key → ∃ head tail, replyBytes r = head ++ key ++ tail ∧ head.length = 4 ∧ tail.length = 2) ∧
    ∃ t, exec .requestFrameDiscarded s = .next t ∧ (∀ k, outputByte t k = some 0) ∧
      t = { s with port := { requestHeld := true, requestLost := true, reply := .notReady, output := t.port.output } }) ∧
  (∀ (clocked : Nat) (s : State), s.resetHeld = false → ∃ t, exec (.readFrame clocked) s = .next t ∧
    t = { s with port := t.port } ∧ t.port = { s.port with output := t.port.output, reply := t.port.reply } ∧
    t.port.output.length = clocked ∧
    (s.port.reply = .empty → (∀ b ∈ t.port.output, b = 0) ∧ t.port.reply = .empty) ∧
    (s.port.reply = .notReady → 1 ≤ clocked → t.port.output = 1 :: List.replicate (clocked - 1) 0 ∧ t.port.reply = .notReady) ∧
    (∀ r, s.port.reply = .held r →
      (clocked ≤ (replyBytes r).length → t.port.output = (2 :: replyBytes r).take clocked ∧ t.port.reply = .held r) ∧
      ((replyBytes r).length < clocked → t.port.reply = .empty ∧
        t.port.output = 2 :: replyBytes r ++ List.replicate (clocked - 1 - (replyBytes r).length) 0))) ∧
  (∀ s : State, s.resetHeld = false → ∃ v : StatusView, exec .readStatus s = .next (answered s 28 .ok (.status v)) ∧
    v.time = s.time.snapshot ∧ v.base = s.modes.base ∧ v.effective = s.modes.effective ∧ v.panel = s.modes.panel ∧
    v.evacuation = s.modes.record.map (fun r => (r.kind, r.phase)) ∧ v.plans = s.store.plans.length ∧
    v.entries = s.store.entries.length ∧ v.overrides = s.cal.overrides.length ∧ v.shifts = s.time.shifts.length ∧
    v.patterns = s.store.patterns.length ∧ v.zones = s.zones.length ∧ v.programs = s.modes.programs.length ∧
    (let records (f : AnnState → Bool) : Nat := (s.arb.slots.filter (fun e => f e.2.state)).length
    v.waiting = records (fun a => match a with
      | .waiting => true
      | _ => false) ∧
    v.active = records (fun a => match a with
      | .active _ => true
      | _ => false) ∧
    v.ended = records (fun a => match a with
      | .ended .. => true
      | _ => false) ∧ v.waiting + v.active + v.ended = s.arb.slots.length) ∧
    v.buses = s.arb.buses ∧ v.calls = s.calls.calls.length ∧
    v.overflow = s.calls.overflow ∧
    (let units (l : LinkState) : Nat := (s.link.buildings.toList.filter (fun b => b.present && decide (b.link = l))).length
    v.unknown = units .unknown ∧ v.online = units .online ∧ v.lost = units .lost ∧
      v.unknown + v.online + v.lost = (s.link.buildings.toList.filter (fun b => b.present)).length) ∧
    (let lines (x : LineState) : Nat := (s.lines.toList.filter (fun l => decide (l.state = x))).length
    v.lines = { unset := lines .unset, synced := lines .synced, holding := lines .holding, advancing := lines .advancing
                following := lines .following, stopped := lines .stopped, faulted := lines .faulted } ∧
      v.lines.unset + v.lines.synced + v.lines.holding + v.lines.advancing + v.lines.following + v.lines.stopped + v.lines.faulted = 12) ∧
    v.status = s.attn.status ∧ v.enable = s.attn.enable)
end

