-- ==== Sys2Proof/Laws/State.lean ====
section
/-! SUPPORT. One lemma per field of `State` for each shared update: the field it changes reads as changed, every other reads as before. -/

namespace Sys2Proof.Machine

variable (s : State)

/-! ### `State.raise` -/

@[simp] theorem State.raise_time (c : EventClass) : (s.raise c).time = s.time := by unfold State.raise; split <;> rfl
@[simp] theorem State.raise_cal (c : EventClass) : (s.raise c).cal = s.cal := by unfold State.raise; split <;> rfl
@[simp] theorem State.raise_dispatch (c : EventClass) : (s.raise c).dispatch = s.dispatch := by unfold State.raise; split <;> rfl
@[simp] theorem State.raise_store (c : EventClass) : (s.raise c).store = s.store := by unfold State.raise; split <;> rfl
@[simp] theorem State.raise_zones (c : EventClass) : (s.raise c).zones = s.zones := by unfold State.raise; split <;> rfl
@[simp] theorem State.raise_zoneCounts (c : EventClass) : (s.raise c).zoneCounts = s.zoneCounts := by unfold State.raise; split <;> rfl
@[simp] theorem State.raise_arb (c : EventClass) : (s.raise c).arb = s.arb := by unfold State.raise; split <;> rfl
@[simp] theorem State.raise_calls (c : EventClass) : (s.raise c).calls = s.calls := by unfold State.raise; split <;> rfl
@[simp] theorem State.raise_lines (c : EventClass) : (s.raise c).lines = s.lines := by unfold State.raise; split <;> rfl
@[simp] theorem State.raise_modes (c : EventClass) : (s.raise c).modes = s.modes := by unfold State.raise; split <;> rfl
@[simp] theorem State.raise_link (c : EventClass) : (s.raise c).link = s.link := by unfold State.raise; split <;> rfl
@[simp] theorem State.raise_port (c : EventClass) : (s.raise c).port = s.port := by unfold State.raise; split <;> rfl
@[simp] theorem State.raise_resetHeld (c : EventClass) : (s.raise c).resetHeld = s.resetHeld := by unfold State.raise; split <;> rfl
@[simp] theorem State.raise_freeCount (c : EventClass) : (s.raise c).freeCount = s.freeCount := by unfold State.raise; split <;> rfl
@[simp] theorem State.raise_pending (c : EventClass) : (s.raise c).pending = s.pending := by unfold State.raise; split <;> rfl

/-! ### `State.raiseIf` -/

@[simp] theorem State.raiseIf_time (b : Bool) (c : EventClass) : (s.raiseIf b c).time = s.time := by unfold State.raiseIf; split <;> simp
@[simp] theorem State.raiseIf_cal (b : Bool) (c : EventClass) : (s.raiseIf b c).cal = s.cal := by unfold State.raiseIf; split <;> simp
@[simp] theorem State.raiseIf_dispatch (b : Bool) (c : EventClass) : (s.raiseIf b c).dispatch = s.dispatch := by unfold State.raiseIf; split <;> simp
@[simp] theorem State.raiseIf_store (b : Bool) (c : EventClass) : (s.raiseIf b c).store = s.store := by unfold State.raiseIf; split <;> simp
@[simp] theorem State.raiseIf_zones (b : Bool) (c : EventClass) : (s.raiseIf b c).zones = s.zones := by unfold State.raiseIf; split <;> simp
@[simp] theorem State.raiseIf_zoneCounts (b : Bool) (c : EventClass) : (s.raiseIf b c).zoneCounts = s.zoneCounts := by unfold State.raiseIf; split <;> simp
@[simp] theorem State.raiseIf_arb (b : Bool) (c : EventClass) : (s.raiseIf b c).arb = s.arb := by unfold State.raiseIf; split <;> simp
@[simp] theorem State.raiseIf_calls (b : Bool) (c : EventClass) : (s.raiseIf b c).calls = s.calls := by unfold State.raiseIf; split <;> simp
@[simp] theorem State.raiseIf_lines (b : Bool) (c : EventClass) : (s.raiseIf b c).lines = s.lines := by unfold State.raiseIf; split <;> simp
@[simp] theorem State.raiseIf_modes (b : Bool) (c : EventClass) : (s.raiseIf b c).modes = s.modes := by unfold State.raiseIf; split <;> simp
@[simp] theorem State.raiseIf_link (b : Bool) (c : EventClass) : (s.raiseIf b c).link = s.link := by unfold State.raiseIf; split <;> simp
@[simp] theorem State.raiseIf_port (b : Bool) (c : EventClass) : (s.raiseIf b c).port = s.port := by unfold State.raiseIf; split <;> simp
@[simp] theorem State.raiseIf_resetHeld (b : Bool) (c : EventClass) : (s.raiseIf b c).resetHeld = s.resetHeld := by unfold State.raiseIf; split <;> simp
@[simp] theorem State.raiseIf_freeCount (b : Bool) (c : EventClass) : (s.raiseIf b c).freeCount = s.freeCount := by unfold State.raiseIf; split <;> simp
@[simp] theorem State.raiseIf_pending (b : Bool) (c : EventClass) : (s.raiseIf b c).pending = s.pending := by unfold State.raiseIf; split <;> simp

/-! ### `State.modifyZone` -/

@[simp] theorem State.modifyZone_time (z : Nat) (f : Zone → Zone) : (s.modifyZone z f).time = s.time := rfl
@[simp] theorem State.modifyZone_cal (z : Nat) (f : Zone → Zone) : (s.modifyZone z f).cal = s.cal := rfl
@[simp] theorem State.modifyZone_dispatch (z : Nat) (f : Zone → Zone) : (s.modifyZone z f).dispatch = s.dispatch := rfl
@[simp] theorem State.modifyZone_store (z : Nat) (f : Zone → Zone) : (s.modifyZone z f).store = s.store := rfl
@[simp] theorem State.modifyZone_zones (z : Nat) (f : Zone → Zone) : (s.modifyZone z f).zones = s.zones.modify z f := rfl
@[simp] theorem State.modifyZone_zoneCounts (z : Nat) (f : Zone → Zone) : (s.modifyZone z f).zoneCounts = s.zoneCounts := rfl
@[simp] theorem State.modifyZone_arb (z : Nat) (f : Zone → Zone) : (s.modifyZone z f).arb = s.arb := rfl
@[simp] theorem State.modifyZone_calls (z : Nat) (f : Zone → Zone) : (s.modifyZone z f).calls = s.calls := rfl
@[simp] theorem State.modifyZone_lines (z : Nat) (f : Zone → Zone) : (s.modifyZone z f).lines = s.lines := rfl
@[simp] theorem State.modifyZone_modes (z : Nat) (f : Zone → Zone) : (s.modifyZone z f).modes = s.modes := rfl
@[simp] theorem State.modifyZone_link (z : Nat) (f : Zone → Zone) : (s.modifyZone z f).link = s.link := rfl
@[simp] theorem State.modifyZone_port (z : Nat) (f : Zone → Zone) : (s.modifyZone z f).port = s.port := rfl
@[simp] theorem State.modifyZone_attn (z : Nat) (f : Zone → Zone) : (s.modifyZone z f).attn = s.attn := rfl
@[simp] theorem State.modifyZone_resetHeld (z : Nat) (f : Zone → Zone) : (s.modifyZone z f).resetHeld = s.resetHeld := rfl
@[simp] theorem State.modifyZone_freeCount (z : Nat) (f : Zone → Zone) : (s.modifyZone z f).freeCount = s.freeCount := rfl
@[simp] theorem State.modifyZone_pending (z : Nat) (f : Zone → Zone) : (s.modifyZone z f).pending = s.pending := rfl

/-! ### `State.modifyDivision` -/

@[simp] theorem State.modifyDivision_time (v : Nat) (f : Division → Division) : (s.modifyDivision v f).time = s.time := rfl
@[simp] theorem State.modifyDivision_cal (v : Nat) (f : Division → Division) : (s.modifyDivision v f).cal = { s.cal with divisions := updateAt s.cal.divisions v f } := rfl
@[simp] theorem State.modifyDivision_dispatch (v : Nat) (f : Division → Division) : (s.modifyDivision v f).dispatch = s.dispatch := rfl
@[simp] theorem State.modifyDivision_store (v : Nat) (f : Division → Division) : (s.modifyDivision v f).store = s.store := rfl
@[simp] theorem State.modifyDivision_zones (v : Nat) (f : Division → Division) : (s.modifyDivision v f).zones = s.zones := rfl
@[simp] theorem State.modifyDivision_zoneCounts (v : Nat) (f : Division → Division) : (s.modifyDivision v f).zoneCounts = s.zoneCounts := rfl
@[simp] theorem State.modifyDivision_arb (v : Nat) (f : Division → Division) : (s.modifyDivision v f).arb = s.arb := rfl
@[simp] theorem State.modifyDivision_calls (v : Nat) (f : Division → Division) : (s.modifyDivision v f).calls = s.calls := rfl
@[simp] theorem State.modifyDivision_lines (v : Nat) (f : Division → Division) : (s.modifyDivision v f).lines = s.lines := rfl
@[simp] theorem State.modifyDivision_modes (v : Nat) (f : Division → Division) : (s.modifyDivision v f).modes = s.modes := rfl
@[simp] theorem State.modifyDivision_link (v : Nat) (f : Division → Division) : (s.modifyDivision v f).link = s.link := rfl
@[simp] theorem State.modifyDivision_port (v : Nat) (f : Division → Division) : (s.modifyDivision v f).port = s.port := rfl
@[simp] theorem State.modifyDivision_attn (v : Nat) (f : Division → Division) : (s.modifyDivision v f).attn = s.attn := rfl
@[simp] theorem State.modifyDivision_resetHeld (v : Nat) (f : Division → Division) : (s.modifyDivision v f).resetHeld = s.resetHeld := rfl
@[simp] theorem State.modifyDivision_freeCount (v : Nat) (f : Division → Division) : (s.modifyDivision v f).freeCount = s.freeCount := rfl
@[simp] theorem State.modifyDivision_pending (v : Nat) (f : Division → Division) : (s.modifyDivision v f).pending = s.pending := rfl

/-! ### `State.modifyLine` -/

@[simp] theorem State.modifyLine_time (n : Nat) (f : Line → Line) : (s.modifyLine n f).time = s.time := rfl
@[simp] theorem State.modifyLine_cal (n : Nat) (f : Line → Line) : (s.modifyLine n f).cal = s.cal := rfl
@[simp] theorem State.modifyLine_dispatch (n : Nat) (f : Line → Line) : (s.modifyLine n f).dispatch = s.dispatch := rfl
@[simp] theorem State.modifyLine_store (n : Nat) (f : Line → Line) : (s.modifyLine n f).store = s.store := rfl
@[simp] theorem State.modifyLine_zones (n : Nat) (f : Line → Line) : (s.modifyLine n f).zones = s.zones := rfl
@[simp] theorem State.modifyLine_zoneCounts (n : Nat) (f : Line → Line) : (s.modifyLine n f).zoneCounts = s.zoneCounts := rfl
@[simp] theorem State.modifyLine_arb (n : Nat) (f : Line → Line) : (s.modifyLine n f).arb = s.arb := rfl
@[simp] theorem State.modifyLine_calls (n : Nat) (f : Line → Line) : (s.modifyLine n f).calls = s.calls := rfl
@[simp] theorem State.modifyLine_lines (n : Nat) (f : Line → Line) : (s.modifyLine n f).lines = updateAt s.lines n f := rfl
@[simp] theorem State.modifyLine_modes (n : Nat) (f : Line → Line) : (s.modifyLine n f).modes = s.modes := rfl
@[simp] theorem State.modifyLine_link (n : Nat) (f : Line → Line) : (s.modifyLine n f).link = s.link := rfl
@[simp] theorem State.modifyLine_port (n : Nat) (f : Line → Line) : (s.modifyLine n f).port = s.port := rfl
@[simp] theorem State.modifyLine_attn (n : Nat) (f : Line → Line) : (s.modifyLine n f).attn = s.attn := rfl
@[simp] theorem State.modifyLine_resetHeld (n : Nat) (f : Line → Line) : (s.modifyLine n f).resetHeld = s.resetHeld := rfl
@[simp] theorem State.modifyLine_freeCount (n : Nat) (f : Line → Line) : (s.modifyLine n f).freeCount = s.freeCount := rfl
@[simp] theorem State.modifyLine_pending (n : Nat) (f : Line → Line) : (s.modifyLine n f).pending = s.pending := rfl

/-! ### `State.modifyBuilding` -/

@[simp] theorem State.modifyBuilding_time (b : Nat) (f : Building → Building) : (s.modifyBuilding b f).time = s.time := rfl
@[simp] theorem State.modifyBuilding_cal (b : Nat) (f : Building → Building) : (s.modifyBuilding b f).cal = s.cal := rfl
@[simp] theorem State.modifyBuilding_dispatch (b : Nat) (f : Building → Building) : (s.modifyBuilding b f).dispatch = s.dispatch := rfl
@[simp] theorem State.modifyBuilding_store (b : Nat) (f : Building → Building) : (s.modifyBuilding b f).store = s.store := rfl
@[simp] theorem State.modifyBuilding_zones (b : Nat) (f : Building → Building) : (s.modifyBuilding b f).zones = s.zones := rfl
@[simp] theorem State.modifyBuilding_zoneCounts (b : Nat) (f : Building → Building) : (s.modifyBuilding b f).zoneCounts = s.zoneCounts := rfl
@[simp] theorem State.modifyBuilding_arb (b : Nat) (f : Building → Building) : (s.modifyBuilding b f).arb = s.arb := rfl
@[simp] theorem State.modifyBuilding_calls (b : Nat) (f : Building → Building) : (s.modifyBuilding b f).calls = s.calls := rfl
@[simp] theorem State.modifyBuilding_lines (b : Nat) (f : Building → Building) : (s.modifyBuilding b f).lines = s.lines := rfl
@[simp] theorem State.modifyBuilding_modes (b : Nat) (f : Building → Building) : (s.modifyBuilding b f).modes = s.modes := rfl
@[simp] theorem State.modifyBuilding_link (b : Nat) (f : Building → Building) : (s.modifyBuilding b f).link = { s.link with buildings := updateAt s.link.buildings b f } := rfl
@[simp] theorem State.modifyBuilding_port (b : Nat) (f : Building → Building) : (s.modifyBuilding b f).port = s.port := rfl
@[simp] theorem State.modifyBuilding_attn (b : Nat) (f : Building → Building) : (s.modifyBuilding b f).attn = s.attn := rfl
@[simp] theorem State.modifyBuilding_resetHeld (b : Nat) (f : Building → Building) : (s.modifyBuilding b f).resetHeld = s.resetHeld := rfl
@[simp] theorem State.modifyBuilding_freeCount (b : Nat) (f : Building → Building) : (s.modifyBuilding b f).freeCount = s.freeCount := rfl
@[simp] theorem State.modifyBuilding_pending (b : Nat) (f : Building → Building) : (s.modifyBuilding b f).pending = s.pending := rfl

/-! ### `State.modifyAnnouncement` -/

@[simp] theorem State.modifyAnnouncement_time (n : Nat) (f : Announcement → Announcement) : (s.modifyAnnouncement n f).time = s.time := rfl
@[simp] theorem State.modifyAnnouncement_cal (n : Nat) (f : Announcement → Announcement) : (s.modifyAnnouncement n f).cal = s.cal := rfl
@[simp] theorem State.modifyAnnouncement_dispatch (n : Nat) (f : Announcement → Announcement) : (s.modifyAnnouncement n f).dispatch = s.dispatch := rfl
@[simp] theorem State.modifyAnnouncement_store (n : Nat) (f : Announcement → Announcement) : (s.modifyAnnouncement n f).store = s.store := rfl
@[simp] theorem State.modifyAnnouncement_zones (n : Nat) (f : Announcement → Announcement) : (s.modifyAnnouncement n f).zones = s.zones := rfl
@[simp] theorem State.modifyAnnouncement_zoneCounts (n : Nat) (f : Announcement → Announcement) : (s.modifyAnnouncement n f).zoneCounts = s.zoneCounts := rfl
@[simp] theorem State.modifyAnnouncement_arb (n : Nat) (f : Announcement → Announcement) : (s.modifyAnnouncement n f).arb = { s.arb with slots := s.arb.slots.modify n f } := rfl
@[simp] theorem State.modifyAnnouncement_calls (n : Nat) (f : Announcement → Announcement) : (s.modifyAnnouncement n f).calls = s.calls := rfl
@[simp] theorem State.modifyAnnouncement_lines (n : Nat) (f : Announcement → Announcement) : (s.modifyAnnouncement n f).lines = s.lines := rfl
@[simp] theorem State.modifyAnnouncement_modes (n : Nat) (f : Announcement → Announcement) : (s.modifyAnnouncement n f).modes = s.modes := rfl
@[simp] theorem State.modifyAnnouncement_link (n : Nat) (f : Announcement → Announcement) : (s.modifyAnnouncement n f).link = s.link := rfl
@[simp] theorem State.modifyAnnouncement_port (n : Nat) (f : Announcement → Announcement) : (s.modifyAnnouncement n f).port = s.port := rfl
@[simp] theorem State.modifyAnnouncement_attn (n : Nat) (f : Announcement → Announcement) : (s.modifyAnnouncement n f).attn = s.attn := rfl
@[simp] theorem State.modifyAnnouncement_resetHeld (n : Nat) (f : Announcement → Announcement) : (s.modifyAnnouncement n f).resetHeld = s.resetHeld := rfl
@[simp] theorem State.modifyAnnouncement_freeCount (n : Nat) (f : Announcement → Announcement) : (s.modifyAnnouncement n f).freeCount = s.freeCount := rfl
@[simp] theorem State.modifyAnnouncement_pending (n : Nat) (f : Announcement → Announcement) : (s.modifyAnnouncement n f).pending = s.pending := rfl

/-! ### `State.setBus` -/

@[simp] theorem State.setBus_time (b : Nat) (e : Option BusEntry) : (s.setBus b e).time = s.time := rfl
@[simp] theorem State.setBus_cal (b : Nat) (e : Option BusEntry) : (s.setBus b e).cal = s.cal := rfl
@[simp] theorem State.setBus_dispatch (b : Nat) (e : Option BusEntry) : (s.setBus b e).dispatch = s.dispatch := rfl
@[simp] theorem State.setBus_store (b : Nat) (e : Option BusEntry) : (s.setBus b e).store = s.store := rfl
@[simp] theorem State.setBus_zones (b : Nat) (e : Option BusEntry) : (s.setBus b e).zones = s.zones := rfl
@[simp] theorem State.setBus_zoneCounts (b : Nat) (e : Option BusEntry) : (s.setBus b e).zoneCounts = s.zoneCounts := rfl
@[simp] theorem State.setBus_arb (b : Nat) (e : Option BusEntry) : (s.setBus b e).arb = { s.arb with buses := s.arb.buses.setIfInBounds b e } := rfl
@[simp] theorem State.setBus_calls (b : Nat) (e : Option BusEntry) : (s.setBus b e).calls = s.calls := rfl
@[simp] theorem State.setBus_lines (b : Nat) (e : Option BusEntry) : (s.setBus b e).lines = s.lines := rfl
@[simp] theorem State.setBus_modes (b : Nat) (e : Option BusEntry) : (s.setBus b e).modes = s.modes := rfl
@[simp] theorem State.setBus_link (b : Nat) (e : Option BusEntry) : (s.setBus b e).link = s.link := rfl
@[simp] theorem State.setBus_port (b : Nat) (e : Option BusEntry) : (s.setBus b e).port = s.port := rfl
@[simp] theorem State.setBus_attn (b : Nat) (e : Option BusEntry) : (s.setBus b e).attn = s.attn := rfl
@[simp] theorem State.setBus_resetHeld (b : Nat) (e : Option BusEntry) : (s.setBus b e).resetHeld = s.resetHeld := rfl
@[simp] theorem State.setBus_freeCount (b : Nat) (e : Option BusEntry) : (s.setBus b e).freeCount = s.freeCount := rfl
@[simp] theorem State.setBus_pending (b : Nat) (e : Option BusEntry) : (s.setBus b e).pending = s.pending := rfl

/-! ### `State.setRecord` -/

@[simp] theorem State.setRecord_time (r : Option EvacRecord) : (s.setRecord r).time = s.time := rfl
@[simp] theorem State.setRecord_cal (r : Option EvacRecord) : (s.setRecord r).cal = s.cal := rfl
@[simp] theorem State.setRecord_dispatch (r : Option EvacRecord) : (s.setRecord r).dispatch = s.dispatch := rfl
@[simp] theorem State.setRecord_store (r : Option EvacRecord) : (s.setRecord r).store = s.store := rfl
@[simp] theorem State.setRecord_zones (r : Option EvacRecord) : (s.setRecord r).zones = s.zones := rfl
@[simp] theorem State.setRecord_zoneCounts (r : Option EvacRecord) : (s.setRecord r).zoneCounts = s.zoneCounts := rfl
@[simp] theorem State.setRecord_arb (r : Option EvacRecord) : (s.setRecord r).arb = s.arb := rfl
@[simp] theorem State.setRecord_calls (r : Option EvacRecord) : (s.setRecord r).calls = s.calls := rfl
@[simp] theorem State.setRecord_lines (r : Option EvacRecord) : (s.setRecord r).lines = s.lines := rfl
@[simp] theorem State.setRecord_modes (r : Option EvacRecord) : (s.setRecord r).modes = { s.modes with record := r } := rfl
@[simp] theorem State.setRecord_link (r : Option EvacRecord) : (s.setRecord r).link = s.link := rfl
@[simp] theorem State.setRecord_port (r : Option EvacRecord) : (s.setRecord r).port = s.port := rfl
@[simp] theorem State.setRecord_attn (r : Option EvacRecord) : (s.setRecord r).attn = s.attn := rfl
@[simp] theorem State.setRecord_resetHeld (r : Option EvacRecord) : (s.setRecord r).resetHeld = s.resetHeld := rfl
@[simp] theorem State.setRecord_freeCount (r : Option EvacRecord) : (s.setRecord r).freeCount = s.freeCount := rfl
@[simp] theorem State.setRecord_pending (r : Option EvacRecord) : (s.setRecord r).pending = s.pending := rfl

/-! ### `State.countZone` -/

@[simp] theorem State.countZone_time (b : Nat) (f : Nat → Nat) : (s.countZone b f).time = s.time := rfl
@[simp] theorem State.countZone_cal (b : Nat) (f : Nat → Nat) : (s.countZone b f).cal = s.cal := rfl
@[simp] theorem State.countZone_dispatch (b : Nat) (f : Nat → Nat) : (s.countZone b f).dispatch = s.dispatch := rfl
@[simp] theorem State.countZone_store (b : Nat) (f : Nat → Nat) : (s.countZone b f).store = s.store := rfl
@[simp] theorem State.countZone_zones (b : Nat) (f : Nat → Nat) : (s.countZone b f).zones = s.zones := rfl
@[simp] theorem State.countZone_zoneCounts (b : Nat) (f : Nat → Nat) : (s.countZone b f).zoneCounts = updateAt s.zoneCounts b f := rfl
@[simp] theorem State.countZone_arb (b : Nat) (f : Nat → Nat) : (s.countZone b f).arb = s.arb := rfl
@[simp] theorem State.countZone_calls (b : Nat) (f : Nat → Nat) : (s.countZone b f).calls = s.calls := rfl
@[simp] theorem State.countZone_lines (b : Nat) (f : Nat → Nat) : (s.countZone b f).lines = s.lines := rfl
@[simp] theorem State.countZone_modes (b : Nat) (f : Nat → Nat) : (s.countZone b f).modes = s.modes := rfl
@[simp] theorem State.countZone_link (b : Nat) (f : Nat → Nat) : (s.countZone b f).link = s.link := rfl
@[simp] theorem State.countZone_port (b : Nat) (f : Nat → Nat) : (s.countZone b f).port = s.port := rfl
@[simp] theorem State.countZone_attn (b : Nat) (f : Nat → Nat) : (s.countZone b f).attn = s.attn := rfl
@[simp] theorem State.countZone_resetHeld (b : Nat) (f : Nat → Nat) : (s.countZone b f).resetHeld = s.resetHeld := rfl
@[simp] theorem State.countZone_freeCount (b : Nat) (f : Nat → Nat) : (s.countZone b f).freeCount = s.freeCount := rfl
@[simp] theorem State.countZone_pending (b : Nat) (f : Nat → Nat) : (s.countZone b f).pending = s.pending := rfl

/-! ### `State.formReply` -/

@[simp] theorem State.formReply_time (code : Nat) (result : ResultCode) (body : ReplyBody) : (s.formReply code result body).time = s.time := rfl
@[simp] theorem State.formReply_cal (code : Nat) (result : ResultCode) (body : ReplyBody) : (s.formReply code result body).cal = s.cal := rfl
@[simp] theorem State.formReply_dispatch (code : Nat) (result : ResultCode) (body : ReplyBody) : (s.formReply code result body).dispatch = s.dispatch := rfl
@[simp] theorem State.formReply_store (code : Nat) (result : ResultCode) (body : ReplyBody) : (s.formReply code result body).store = s.store := rfl
@[simp] theorem State.formReply_zones (code : Nat) (result : ResultCode) (body : ReplyBody) : (s.formReply code result body).zones = s.zones := rfl
@[simp] theorem State.formReply_zoneCounts (code : Nat) (result : ResultCode) (body : ReplyBody) : (s.formReply code result body).zoneCounts = s.zoneCounts := rfl
@[simp] theorem State.formReply_arb (code : Nat) (result : ResultCode) (body : ReplyBody) : (s.formReply code result body).arb = s.arb := rfl
@[simp] theorem State.formReply_calls (code : Nat) (result : ResultCode) (body : ReplyBody) : (s.formReply code result body).calls = s.calls := rfl
@[simp] theorem State.formReply_lines (code : Nat) (result : ResultCode) (body : ReplyBody) : (s.formReply code result body).lines = s.lines := rfl
@[simp] theorem State.formReply_modes (code : Nat) (result : ResultCode) (body : ReplyBody) : (s.formReply code result body).modes = s.modes := rfl
@[simp] theorem State.formReply_link (code : Nat) (result : ResultCode) (body : ReplyBody) : (s.formReply code result body).link = s.link := rfl
@[simp] theorem State.formReply_attn (code : Nat) (result : ResultCode) (body : ReplyBody) : (s.formReply code result body).attn = s.attn := rfl
@[simp] theorem State.formReply_resetHeld (code : Nat) (result : ResultCode) (body : ReplyBody) : (s.formReply code result body).resetHeld = s.resetHeld := rfl
@[simp] theorem State.formReply_freeCount (code : Nat) (result : ResultCode) (body : ReplyBody) : (s.formReply code result body).freeCount = s.freeCount := rfl
@[simp] theorem State.formReply_pending (code : Nat) (result : ResultCode) (body : ReplyBody) : (s.formReply code result body).pending = s.pending := rfl

/-! ### What an update leaves of a group -/

@[simp] theorem State.raise_enable (c : EventClass) : (s.raise c).attn.enable = s.attn.enable := by unfold State.raise; split <;> rfl

/-- R169: a raised event sets its own status. -/
theorem State.raise_status (c : EventClass) (h : s.resetHeld = false) :
    (s.raise c).attn.status = insertMember s.attn.status c.number := by simp [State.raise, h]

/-- R171: nothing is raised while RESET is asserted. -/
theorem State.raise_held (c : EventClass) (h : s.resetHeld = true) : s.raise c = s := by simp [State.raise, h]

@[simp] theorem State.raiseIf_false (c : EventClass) : s.raiseIf false c = s := rfl

@[simp] theorem State.raiseIf_true (c : EventClass) : s.raiseIf true c = s.raise c := rfl

@[simp] theorem State.raiseIf_enable (b : Bool) (c : EventClass) : (s.raiseIf b c).attn.enable = s.attn.enable := by
  unfold State.raiseIf; split <;> simp

@[simp] theorem State.formReply_output (code : Nat) (result : ResultCode) (body : ReplyBody) :
    (s.formReply code result body).port.output = [] := rfl

@[simp] theorem State.formReply_requestLost (code : Nat) (result : ResultCode) (body : ReplyBody) :
    (s.formReply code result body).port.requestLost = false := rfl

end Sys2Proof.Machine
end

