-- ==== Sys2Proof/Laws/Frames.lean ====
section
/-! SUPPORT. What the shared operations of the Dispatcher, the Arbiter, the Mode and Evacuation Controller and the Time Base never
touch. -/

namespace Sys2Proof.Machine

/-- The configuration of each held zone, under its key. -/
def zoneConfigs (s : State) : List (Nat × ZoneConfig) := s.zones.map (fun e => (e.1, e.2.config))

/-- State t is state s but for bell records, claims, announcements, counts, calls, modes and attention: the time, the store, the configurations
of the zones, the lines, the link, the port and the queue stand. -/
structure Kept (s t : State) : Prop where
  time : t.time = s.time
  dispatch : t.dispatch = s.dispatch
  store : t.store = s.store
  configs : zoneConfigs t = zoneConfigs s
  zoneCounts : t.zoneCounts = s.zoneCounts
  lines : t.lines = s.lines
  link : t.link = s.link
  port : t.port = s.port
  resetHeld : t.resetHeld = s.resetHeld
  freeCount : t.freeCount = s.freeCount
  pending : t.pending = s.pending

variable {s t u : State}

theorem Kept.refl (s : State) : Kept s s := ⟨rfl, rfl, rfl, rfl, rfl, rfl, rfl, rfl, rfl, rfl, rfl⟩

theorem Kept.trans (h : Kept s t) (k : Kept t u) : Kept s u :=
  ⟨k.time.trans h.time, k.dispatch.trans h.dispatch, k.store.trans h.store, k.configs.trans h.configs,
   k.zoneCounts.trans h.zoneCounts, k.lines.trans h.lines, k.link.trans h.link, k.port.trans h.port,
   k.resetHeld.trans h.resetHeld, k.freeCount.trans h.freeCount, k.pending.trans h.pending⟩

theorem zoneConfigs_modify (t : Table Zone) (z : Nat) (f : Zone → Zone) (hf : ∀ x, (f x).config = x.config) :
    (t.modify z f).map (fun e => (e.1, e.2.config)) = t.map (fun e => (e.1, e.2.config)) := by
  simp only [Table.modify, List.map_map]
  congr 1; funext e; simp only [Function.comp]; split <;> simp [hf]

/-- A thing done for each number of a list keeps what each doing of it keeps. -/
theorem forEach_induct (P : State → Prop) (f : State → Nat → State) (l : List Nat) (h : ∀ s n, P s → P (f s n)) (hs : P s) :
    P (s.forEach l f) := by
  unfold State.forEach
  induction l generalizing s with
  | nil => exact hs
  | cons n rest ih => exact ih (h s n hs)

theorem Kept.forEach (f : State → Nat → State) (l : List Nat) (h : ∀ s n, Kept s (f s n)) : Kept s (s.forEach l f) :=
  forEach_induct (Kept s) f l (fun t n ht => ht.trans (h t n)) (.refl s)

theorem Kept.foldl {α : Type} (f : State → α → State) (l : List α) (h : ∀ s x, Kept s (f s x)) : Kept s (l.foldl f s) := by
  induction l generalizing s with
  | nil => exact .refl s
  | cons x rest ih => exact (h s x).trans ih

theorem Kept.raise (s : State) (c : EventClass) : Kept s (s.raise c) := by constructor <;> simp [zoneConfigs]
theorem Kept.raiseIf (s : State) (b : Bool) (c : EventClass) : Kept s (s.raiseIf b c) := by constructor <;> simp [zoneConfigs]
theorem Kept.modifyDivision (s : State) (v : Nat) (f : Division → Division) : Kept s (s.modifyDivision v f) := by
  constructor <;> simp [zoneConfigs]
theorem Kept.modifyAnnouncement (s : State) (n : Nat) (f : Announcement → Announcement) : Kept s (s.modifyAnnouncement n f) := by
  constructor <;> simp [zoneConfigs]
theorem Kept.setBus (s : State) (b : Nat) (e : Option BusEntry) : Kept s (s.setBus b e) := by constructor <;> simp [zoneConfigs]
theorem Kept.setRecord (s : State) (r : Option EvacRecord) : Kept s (s.setRecord r) := by constructor <;> simp [zoneConfigs]
theorem Kept.modifyZone (s : State) (z : Nat) (f : Zone → Zone) (hf : ∀ x, (f x).config = x.config) : Kept s (s.modifyZone z f) := by
  constructor <;> simp [zoneConfigs, zoneConfigs_modify _ _ _ hf]

/-! ### Bells -/

theorem Kept.countMissed (s : State) (v : Nat) : Kept s (s.countMissed v) := (Kept.modifyDivision ..).trans (.raise ..)
theorem Kept.countSuppressed (s : State) (v : Nat) : Kept s (s.countSuppressed v) := (Kept.modifyDivision ..).trans (.raise ..)

theorem Kept.startSounding (s : State) (z p t : Nat) : Kept s (s.modifyZone z (·.startSounding p t)) := .modifyZone _ _ _ fun _ => rfl

theorem Kept.bellOnZone (s : State) (p d : Nat) (h : Bool) (l late z : Nat) : Kept s (s.bellOnZone p d h l late z) := by
  unfold State.bellOnZone
  split
  · exact .refl s
  · split
    · exact .countSuppressed ..
    · exact .refl s
    · exact .startSounding ..
    · dsimp only; split
      · exact (Kept.countMissed ..).trans (.modifyZone _ _ _ fun _ => rfl)
      · exact .modifyZone _ _ _ fun _ => rfl
    · dsimp only; split
      · exact (Kept.countMissed ..).trans (.startSounding ..)
      · exact .startSounding ..

theorem Kept.missOnZone (s : State) (z : Nat) : Kept s (s.missOnZone z) := by
  unfold State.missOnZone; split
  · exact .refl s
  · exact .countMissed ..

theorem Kept.auxOnZone (s : State) (level : Bool) (z : Nat) : Kept s (s.auxOnZone level z) := .modifyZone _ _ _ fun _ => rfl

theorem Kept.wakeDeferral (s : State) (z : Nat) : Kept s (s.wakeDeferral z) := by
  unfold State.wakeDeferral
  split
  · exact .refl s
  · split
    · split
      · exact Kept.trans (.modifyZone s z (fun x => { x with bell := .idle }) fun _ => rfl) (.countSuppressed ..)
      · exact .startSounding ..
    · exact .refl s

theorem Kept.dropDeferralIfForced (s : State) (z : Nat) : Kept s (s.dropDeferralIfForced z) := by
  unfold State.dropDeferralIfForced
  split
  · exact .refl s
  · split
    · exact Kept.trans (.modifyZone s z (fun x => { x with bell := .idle }) fun _ => rfl) (.countSuppressed ..)
    · exact .refl s

theorem Zone.cutInDeferral_config (x : Zone) : x.cutInDeferral.config = x.config := by unfold Zone.cutInDeferral; split <;> rfl

theorem Kept.expireDeferral (s : State) (z : Nat) : Kept s (s.expireDeferral z) := by
  unfold State.expireDeferral; split
  · exact .modifyZone _ _ _ fun x => by split <;> simp [Zone.cutInDeferral_config]
  · exact .refl s

theorem Kept.alertFallback (s : State) (z : Nat) : Kept s (s.alertFallback z) :=
  .modifyZone _ _ _ fun x => by split <;> rfl

theorem Kept.endClaim (s : State) (z : Nat) : Kept s (s.endClaim z) :=
  Kept.trans (.modifyZone s z (fun x => { x with claim := none, alertDone := false }) fun _ => rfl) (.wakeDeferral ..)

theorem Kept.writeClaim (s : State) (c : Claim) (z : Nat) : Kept s (s.writeClaim c z) := by
  unfold State.writeClaim
  dsimp only
  have h : Kept s (s.modifyZone z fun x => { x with claim := some c, alertDone := false }) := .modifyZone _ _ _ fun _ => rfl
  split
  · split
    · exact h.trans (.alertFallback ..)
    · exact h
  · exact h

/-! ### Announcements -/

theorem Kept.withArb (s : State) (a : Arbiter) : Kept s { s with arb := a } := by constructor <;> rfl
theorem Kept.withCalls (s : State) (c : CallList) : Kept s { s with calls := c } := by constructor <;> rfl
theorem Kept.withModes (s : State) (m : ModeControl) : Kept s { s with modes := m } := by constructor <;> rfl

theorem Kept.endRecord (s : State) (n : Nat) (reason : EndReason) (passing : ZoneSet) (keepBus : Bool) :
    Kept s (s.endRecord n reason passing keepBus) := by
  unfold State.endRecord
  split
  · exact .refl s
  · dsimp only
    refine Kept.trans ?_ (.raiseIf ..)
    refine Kept.trans ?_ (.raiseIf ..)
    refine Kept.trans ?_ (.forEach _ _ fun s z => .endClaim s z)
    split
    · split
      · exact .withArb ..
      · exact (Kept.withArb ..).trans (.setBus ..)
    · exact .withArb ..

theorem Kept.loseZones (s : State) (taken : ZoneSet) (m : Nat) : Kept s (s.loseZones taken m) := by
  unfold State.loseZones
  split
  · exact .refl s
  · split
    · exact .refl s
    · split
      · exact .endRecord ..
      · exact (Kept.modifyAnnouncement ..).trans (.raise ..)

theorem Kept.retireCallOf (s : State) (z : Option Nat) : Kept s (s.retireCallOf z) := by
  unfold State.retireCallOf; split
  · exact .refl s
  · exact .withCalls ..

theorem Kept.grant (s : State) (n : Nat) : Kept s (s.grant n) := by
  unfold State.grant
  split
  · exact .refl s
  · split
    · exact .refl s
    · dsimp only
      refine Kept.trans ?_ (.retireCallOf ..)
      refine Kept.trans ?_ (.forEach _ _ fun s z => .writeClaim s _ z)
      refine Kept.trans ?_ (.setBus ..)
      refine Kept.trans ?_ (.modifyAnnouncement ..)
      refine Kept.trans ?_ (.forEach _ _ fun s m => .loseZones s _ m)
      split
      · exact .endRecord ..
      · exact .refl s

theorem Kept.pickUp (s : State) (n : Nat) : Kept s (s.pickUp n) := by
  unfold State.pickUp
  split
  · exact .refl s
  · split
    · exact .refl s
    · exact (Kept.modifyAnnouncement ..).trans (.forEach _ _ fun s z => .writeClaim s _ z)

theorem Kept.regrantOne (acc : State × Bool) (n : Nat) (h : Kept s acc.1) : Kept s (regrantOne acc n).1 := by
  unfold Machine.regrantOne
  split
  · exact h
  · split
    · exact h.trans ((Kept.grant ..).trans (.raise ..))
    · exact h

theorem Kept.regrantPass (s : State) : Kept s (regrantPass s).1 := by
  have fold : ∀ (l : List Nat) (acc : State × Bool), Kept s acc.1 → Kept s (l.foldl Machine.regrantOne acc).1 := by
    intro l
    induction l with
    | nil => exact fun _ h => h
    | cons n rest ih => exact fun acc h => ih _ (.regrantOne acc n h)
  exact fold _ _ (.forEach _ _ fun s n => .pickUp s n)

theorem Kept.regrantPasses (k : Nat) (s : State) : Kept s (regrantPasses k s) := by
  induction k generalizing s with
  | zero => exact .refl s
  | succ k ih =>
    have h := Kept.regrantPass s
    unfold Machine.regrantPasses
    split
    · rename_i s' heq; rw [heq] at h; exact h.trans (ih s')
    · rename_i s' heq; rw [heq] at h; exact h

theorem Kept.regrant (s : State) : Kept s s.regrant := .regrantPasses ..

theorem Kept.regrantIfFreed (s before : State) : Kept s (s.regrantIfFreed before) := by
  unfold State.regrantIfFreed; split
  · exact .regrant s
  · exact .refl s

theorem Kept.endWhole (s : State) (n : Nat) (reason : EndReason) : Kept s (s.endWhole n reason) := .endRecord ..

theorem Kept.endDisallowed (s : State) : Kept s s.endDisallowed :=
  ((Kept.forEach _ _ fun s n => .endWhole s n _).trans (.forEach _ _ fun s n => .endWhole s n _)).trans (.regrantIfFreed ..)

theorem Kept.announceInto (s : State) (n : Nat) (a : Announcement) : Kept s (s.announceInto n a) := by
  unfold State.announceInto
  dsimp only
  refine (Kept.withArb s { slots := s.arb.slots.insert n a, buses := s.arb.buses, arrival := s.arb.arrival ++ [n] }).trans ?_
  split
  · exact (Kept.grant ..).trans (.regrantIfFreed ..)
  · split
    · exact .endWhole ..
    · exact .refl _

theorem Kept.releaseRecord (s : State) (n : Nat) : Kept s (s.releaseRecord n) := by
  unfold State.releaseRecord; split
  · exact .refl s
  · split
    · exact (Kept.endWhole ..).trans (.regrantIfFreed ..)
    · exact .refl s

theorem Kept.expireWait (s : State) (n : Nat) : Kept s (s.expireWait n) := by
  unfold State.expireWait
  split
  · split
    · exact .endWhole ..
    · exact .refl _
  · exact .refl _

theorem Kept.expireDurations (s : State) : Kept s s.expireDurations :=
  (Kept.forEach _ _ fun s n => .endWhole s n _).trans (.regrantIfFreed ..)

/-! ### Modes and evacuation -/

theorem Kept.formMode (s : State) : Kept s s.formMode := by
  unfold State.formMode
  dsimp only
  split
  · exact (Kept.withModes ..).trans ((Kept.endDisallowed _).trans (.forEach _ _ fun s z => .dropDeferralIfForced s z))
  · exact .withModes ..

theorem Kept.advanceTag (s : State) (z : Nat) : Kept s (s.advanceTag z) := .modifyZone _ _ _ fun _ => rfl

theorem Kept.beginDrive (s : State) (tone : Tone) : Kept s (s.beginDrive tone) := by
  unfold State.beginDrive; split
  · exact (Kept.forEach _ _ fun s z => .advanceTag s z).trans (.setRecord ..)
  · exact .refl s

theorem Kept.createDrill (s : State) (program : Nat) : Kept s (s.createDrill program) :=
  (Kept.setRecord ..).trans ((Kept.beginDrive ..).trans (.formMode _))

theorem Kept.createAlarm (s : State) : Kept s s.createAlarm := (Kept.setRecord ..).trans (.raise ..)

theorem Kept.closeRecord (s : State) (result : EvacResult) : Kept s (s.closeRecord result) := by
  unfold State.closeRecord; split
  · exact .refl s
  · exact (Kept.withModes ..).trans (.raiseIf ..)

theorem Kept.clearBuilding (s : State) (r : EvacRecord) (b : Nat) (manual : Bool) : Kept s (s.clearBuilding r b manual) := by
  unfold State.clearBuilding
  dsimp only
  split
  · exact (Kept.setRecord ..).trans (.raise ..)
  · exact .setRecord ..

theorem Kept.takeAllClear (s : State) (r : EvacRecord) : Kept s (s.takeAllClear r) := by
  unfold State.takeAllClear
  dsimp only
  split
  · exact (Kept.setRecord ..).trans (.beginDrive ..)
  · exact (Kept.setRecord ..).trans ((Kept.closeRecord ..).trans (.formMode _))

theorem Kept.panelToAlarm (s : State) : Kept s s.panelToAlarm := by
  unfold State.panelToAlarm
  split
  · exact (Kept.createAlarm s).trans (.formMode _)
  · split
    · exact (Kept.closeRecord ..).trans ((Kept.createAlarm _).trans (.formMode _))
    · exact (Kept.setRecord ..).trans (.formMode _)

theorem Kept.panelToNormal (s : State) : Kept s s.panelToNormal := by
  unfold State.panelToNormal
  split
  · split
    · exact (Kept.setRecord ..).trans (.formMode _)
    · exact .formMode _
  · exact .formMode _

/-! ### The Time Base's own records -/

/-- State t is state s but for the offset, the time-shift records and the attention. -/
def MovesOffset (s t : State) : Prop :=
  t = { s with time := { s.time with offset := t.time.offset, shifts := t.time.shifts }, attn := t.attn }

theorem MovesOffset.refl (s : State) : MovesOffset s s := rfl

theorem MovesOffset.trans (h : MovesOffset s t) (k : MovesOffset t u) : MovesOffset s u := by
  unfold MovesOffset at *
  rw [k, h]

theorem MovesOffset.raiseIf (s : State) (b : Bool) (c : EventClass) : MovesOffset s (s.raiseIf b c) := by
  unfold MovesOffset State.raiseIf State.raise
  split <;> (try split) <;> rfl

/-- R8: examining the records changes the offset and the records alone. -/
theorem passShifts_time (old : CivilTime) (l : List ShiftRecord) (t : TimeBase) :
    (passShifts old l t).1 = { t with offset := (passShifts old l t).1.offset, shifts := (passShifts old l t).1.shifts } := by
  induction l generalizing t with
  | nil => rfl
  | cons r rest ih =>
    simp only [passShifts]
    split
    · exact ih _
    · exact ih t

theorem MovesOffset.passRecords (s : State) (old : CivilTime) : MovesOffset s (s.passRecords old) := by
  unfold State.passRecords
  split
  · refine .trans ?_ (.raiseIf ..)
    unfold MovesOffset
    simp only
    rw [passShifts_time]
  · exact .refl s

/-- R15: a shift record that falls due changes the offset, the records and, when clamped, the TIME status alone. -/
theorem MovesOffset.applyDueShift (s : State) (c : CivilTime) : MovesOffset s (s.applyDueShift c) := by
  unfold State.applyDueShift
  split
  · exact .refl s
  · rename_i r _
    have first : MovesOffset s ({ s with time := { s.time with
      offset := shiftedOffset s.time.offset r.shift, shifts := s.time.shifts.filter (fun x => x.day != c.day) } } : State) := rfl
    split
    · exact (first.trans (.raiseIf ..)).trans (.passRecords ..)
    · exact first.trans (.raiseIf ..)

end Sys2Proof.Machine
end

