-- ==== Sys2Proof/Laws/Outcomes.lean ====
section
/-! SUPPORT. What the shared operations of the command port and of an event can do, said once. -/

namespace Sys2Proof.Machine

variable {s t : State}

/-- Forming a reply is `answered`. -/
theorem formReply_eq_answered (s : State) (code : Nat) (result : ResultCode) (body : ReplyBody) :
    s.formReply code result body = answered s code result body := rfl

/-- A request outside reset: its owner's state with its answer as the reply. -/
theorem takeRequest_open (h : s.resetHeld = false) (code : Nat) (owner : State → Answer) :
    takeRequest s code owner = .next (answered (owner s).state code (owner s).result (owner s).body) := by
  simp [takeRequest, h, formReply_eq_answered]

/-- A request while RESET is asserted changes nothing (R171). -/
theorem takeRequest_held (h : s.resetHeld = true) (code : Nat) (owner : State → Answer) :
    takeRequest s code owner = .next s := by simp [takeRequest, h]

/-- Everything that a request can do. -/
theorem takeRequest_cases {code : Nat} {owner : State → Answer} (h : takeRequest s code owner = .next t) :
    (s.resetHeld = true ∧ t = s) ∨
    (s.resetHeld = false ∧ t = answered (owner s).state code (owner s).result (owner s).body) := by
  cases hr : s.resetHeld with
  | true => rw [takeRequest_held hr] at h; cases h; exact .inl ⟨rfl, rfl⟩
  | false => rw [takeRequest_open hr] at h; cases h; exact .inr ⟨rfl, rfl⟩

/-- An event outside reset. -/
theorem takeEvent_open (h : s.resetHeld = false) (f : State → State) : takeEvent s f = .next (f s) := by simp [takeEvent, h]

/-- An event while RESET is asserted changes nothing. -/
theorem takeEvent_held (h : s.resetHeld = true) (f : State → State) : takeEvent s f = .next s := by simp [takeEvent, h]

/-- Everything that an event can do. -/
theorem takeEvent_cases {f : State → State} (h : takeEvent s f = .next t) :
    (s.resetHeld = true ∧ t = s) ∨ (s.resetHeld = false ∧ t = f s) := by
  cases hr : s.resetHeld with
  | true => rw [takeEvent_held hr] at h; cases h; exact .inl ⟨rfl, rfl⟩
  | false => rw [takeEvent_open hr] at h; cases h; exact .inr ⟨rfl, rfl⟩

/-- R163: a request's frame drives 0 in every byte. -/
theorem outputByte_answered (h : s.resetHeld = false) (code : Nat) (result : ResultCode) (body : ReplyBody) (k : Nat) :
    outputByte (answered s code result body) k = some 0 := by simp [outputByte, answered, h]

/-- LOOKUP changes nothing but the reply. -/
@[simp] theorem lookupAnswer_state (s : State) (out : Bool) (k : Key) (found : Option RecordView) :
    (lookupAnswer s out k found).state = s := by unfold lookupAnswer refuse; split <;> (try split) <;> rfl

/-- NEXT changes nothing but the reply. -/
@[simp] theorem nextAnswer_state (s : State) (start : NextStart) (out : Bool) (k : Key) (found : Option (Key × RecordView)) :
    (nextAnswer s start out k found).state = s := by unfold nextAnswer refuse; split <;> (try split) <;> rfl

/-- The three answers of LOOKUP (R166). -/
theorem lookupAnswer_cases (s : State) (out : Bool) (k : Key) (found : Option RecordView) :
    (out = true ∧ lookupAnswer s out k found = refuse s .range (.key k)) ∨
    (out = false ∧ found = none ∧ lookupAnswer s out k found = refuse s .notFound (.key k)) ∨
    (∃ v, out = false ∧ found = some v ∧ lookupAnswer s out k found = ⟨s, .ok, .record k v⟩) := by
  cases out <;> cases found <;> simp [lookupAnswer]

/-- The three answers of NEXT (R166). -/
theorem nextAnswer_cases (s : State) (start : NextStart) (out : Bool) (k : Key) (found : Option (Key × RecordView)) :
    (out = true ∧ nextAnswer s start out k found = refuse s .range (.nextKey start k)) ∨
    (out = false ∧ found = none ∧ nextAnswer s start out k found = refuse s .notFound (.nextKey start k)) ∨
    (∃ k' v, out = false ∧ found = some (k', v) ∧ nextAnswer s start out k found = ⟨s, .ok, .record k' v⟩) := by
  cases out <;> rcases found with _ | ⟨k', v⟩ <;> simp [nextAnswer]

@[simp] theorem refuse_state (s : State) (r : ResultCode) (b : ReplyBody) : (refuse s r b).state = s := rfl
@[simp] theorem refuse_result (s : State) (r : ResultCode) (b : ReplyBody) : (refuse s r b).result = r := rfl
@[simp] theorem refuse_body (s : State) (r : ResultCode) (b : ReplyBody) : (refuse s r b).body = b := rfl

end Sys2Proof.Machine
end

