-- ==== Sys2Proof/Laws/Tables.lean ====
section
/-! SUPPORT. The laws of keyed tables, of fixed rows of records and of sets of numbers. -/

namespace Sys2Proof

/-! ### Keyed tables -/

section Tables

variable {α : Type} {t : Table α}

@[simp] theorem Table.get_nil (k : Nat) : Table.get ([] : Table α) k = none := rfl

theorem Table.get_cons (k' : Nat) (v : α) (t : Table α) (k : Nat) :
    Table.get ((k', v) :: t) k = if k' = k then some v else t.get k := rfl

/-- A read after an insertion under the same key gives the record inserted. -/
@[simp] theorem Table.get_insert_self (t : Table α) (k : Nat) (v : α) : (t.insert k v).get k = some v := by
  induction t with
  | nil => simp [Table.insert, Table.get]
  | cons e rest ih =>
    obtain ⟨k', v'⟩ := e
    simp only [Table.insert]
    split
    · simp [Table.get]
    · split
      · simp [Table.get]
      · rename_i h; simp [Table.get, h, ih]

/-- An insertion leaves every other key's record. -/
theorem Table.get_insert_ne (t : Table α) {k j : Nat} (v : α) (h : j ≠ k) : (t.insert k v).get j = t.get j := by
  induction t with
  | nil => simp [Table.insert, Table.get, h.symm]
  | cons e rest ih =>
    obtain ⟨k', v'⟩ := e
    simp only [Table.insert]
    split
    · simp [Table.get, h.symm]
    · split
      · rename_i hk; subst hk; simp [Table.get, h.symm]
      · simp [Table.get, ih]

/-- A read under the key that was erased finds nothing. -/
@[simp] theorem Table.get_erase_self (t : Table α) (k : Nat) : (t.erase k).get k = none := by
  induction t with
  | nil => rfl
  | cons e rest ih =>
    obtain ⟨k', v'⟩ := e
    by_cases h : k' = k
    · simpa [Table.erase, h] using ih
    · simpa [Table.erase, h, Table.get] using ih

/-- An erasure leaves every other key's record. -/
theorem Table.get_erase_ne (t : Table α) {k j : Nat} (h : j ≠ k) : (t.erase k).get j = t.get j := by
  induction t with
  | nil => rfl
  | cons e rest ih =>
    obtain ⟨k', v'⟩ := e
    by_cases hk : k' = k
    · subst hk; simpa [Table.erase, Table.get, h.symm] using ih
    · by_cases hj : k' = j
      · subst hj; simp [Table.erase, hk, Table.get]
      · simpa [Table.erase, hk, Table.get, hj] using ih

/-- What a read finds after a change of one record. -/
theorem Table.get_modify (t : Table α) (k j : Nat) (f : α → α) :
    (t.modify k f).get j = if j = k then (t.get j).map f else t.get j := by
  induction t with
  | nil => simp [Table.modify, Table.get]
  | cons e rest ih =>
    obtain ⟨k', v'⟩ := e
    simp only [Table.modify, List.map_cons] at ih ⊢
    by_cases hk : k' = k <;> by_cases hj : k' = j <;> by_cases hjk : j = k <;> simp_all [Table.get]

@[simp] theorem Table.get_modify_self (t : Table α) (k : Nat) (f : α → α) : (t.modify k f).get k = (t.get k).map f := by
  simp [Table.get_modify]

theorem Table.get_modify_ne (t : Table α) {k j : Nat} (f : α → α) (h : j ≠ k) : (t.modify k f).get j = t.get j := by
  simp [Table.get_modify, h]

@[simp] theorem Table.keys_modify (t : Table α) (k : Nat) (f : α → α) : (t.modify k f).keys = t.keys := by
  simp only [Table.keys, Table.modify, List.map_map]
  congr 1; funext e; simp only [Function.comp]; split <;> rfl

@[simp] theorem Table.keys_mapAll (t : Table α) (f : Nat → α → α) : (t.mapAll f).keys = t.keys := by
  simp only [Table.keys, Table.mapAll, List.map_map]; rfl

@[simp] theorem Table.length_modify (t : Table α) (k : Nat) (f : α → α) : (t.modify k f).length = t.length := by
  simp [Table.modify]

/-- The records of a changed table. -/
theorem Table.get_mapAll (t : Table α) (f : Nat → α → α) (j : Nat) : (t.mapAll f).get j = (t.get j).map (f j) := by
  induction t with
  | nil => rfl
  | cons e rest ih =>
    obtain ⟨k', v'⟩ := e
    simp only [Table.mapAll, List.map_cons] at ih ⊢
    by_cases h : k' = j <;> simp_all [Table.get]

/-- A table is sorted when its keys are strictly rising. -/
theorem Table.sorted_iff_keys (t : Table α) : t.Sorted ↔ t.keys.Pairwise (· < ·) := by
  simp [Table.Sorted, Table.keys, List.pairwise_map]

theorem Table.sorted_modify (k : Nat) (f : α → α) (h : t.Sorted) : (t.modify k f).Sorted := by
  rw [Table.sorted_iff_keys] at h ⊢; simpa using h

theorem Table.sorted_mapAll (f : Nat → α → α) (h : t.Sorted) : (t.mapAll f).Sorted := by
  rw [Table.sorted_iff_keys] at h ⊢; simpa using h

theorem Table.sorted_erase (k : Nat) (h : t.Sorted) : (t.erase k).Sorted := List.Pairwise.filter _ h

/-- The keys of an insertion: the new key, and the keys held. -/
theorem Table.mem_insert {k : Nat} {v : α} {e : Nat × α} (h : e ∈ t.insert k v) : e = (k, v) ∨ e ∈ t := by
  induction t with
  | nil => simpa [Table.insert] using h
  | cons x rest ih =>
    obtain ⟨k', v'⟩ := x
    simp only [Table.insert] at h
    split at h
    · simpa using h
    · split at h
      · rcases List.mem_cons.mp h with h | h
        · exact .inl h
        · exact .inr (List.mem_cons_of_mem _ h)
      · rcases List.mem_cons.mp h with h | h
        · exact .inr (h ▸ List.mem_cons_self ..)
        · exact (ih h).imp_right (List.mem_cons_of_mem _)

theorem Table.sorted_insert (k : Nat) (v : α) (h : t.Sorted) : (t.insert k v).Sorted := by
  induction t with
  | nil => simp [Table.insert, Table.Sorted]
  | cons x rest ih =>
    obtain ⟨k', v'⟩ := x
    obtain ⟨h1, h2⟩ := List.pairwise_cons.mp h
    simp only [Table.insert]
    split
    · rename_i hk
      refine List.pairwise_cons.mpr ⟨fun e he => ?_, h⟩
      rcases List.mem_cons.mp he with he | he
      · simpa [he] using hk
      · exact Nat.lt_trans hk (h1 e he)
    · split
      · rename_i hk; subst hk; exact List.pairwise_cons.mpr ⟨h1, h2⟩
      · rename_i hlt hne
        refine List.pairwise_cons.mpr ⟨fun e he => ?_, ih h2⟩
        rcases Table.mem_insert he with he | he
        · subst he; simp only; omega
        · exact h1 e he

/-- A record that is found stands in the table. -/
theorem Table.mem_of_get {t : Table α} {k : Nat} {v : α} (h : t.get k = some v) : (k, v) ∈ t := by
  induction t with
  | nil => simp at h
  | cons e t ih =>
    obtain ⟨k', v'⟩ := e
    rw [Table.get_cons] at h
    split at h
    · rename_i hk
      cases h
      simp [hk]
    · exact List.mem_cons_of_mem _ (ih h)

/-- What holds of every record in a table holds of every record found in it. -/
theorem Table.forall_get {t : Table α} {P : Nat → α → Prop} (h : ∀ e ∈ t, P e.1 e.2) : ∀ k v, t.get k = some v → P k v :=
  fun _ _ hg => h _ (Table.mem_of_get hg)

/-- In a sorted table a record stands under a key exactly when the read finds it. -/
theorem Table.get_eq_some_iff (h : t.Sorted) (k : Nat) (v : α) : t.get k = some v ↔ (k, v) ∈ t := by
  induction t with
  | nil => simp
  | cons x rest ih =>
    obtain ⟨k', v'⟩ := x
    obtain ⟨h1, h2⟩ := List.pairwise_cons.mp h
    simp only [Table.get_cons, List.mem_cons, Prod.mk.injEq]
    split
    · rename_i hk
      subst hk
      constructor
      · rintro h'; exact .inl ⟨rfl, (Option.some.inj h').symm⟩
      · rintro (⟨-, rfl⟩ | h')
        · rfl
        · exact absurd (h1 _ h') (Nat.lt_irrefl _)
    · rename_i hk
      rw [ih h2]
      exact ⟨.inr, fun h' => h'.resolve_left fun h'' => hk h''.1.symm⟩

end Tables

/-! ### Lists kept in an order -/

theorem mem_insertByKey {α : Type} (key : α → Nat) (x y : α) (l : List α) : y ∈ insertByKey key x l ↔ y = x ∨ y ∈ l := by
  induction l with
  | nil => simp [insertByKey]
  | cons z rest ih =>
    simp only [insertByKey]
    split
    · simp
    · simp only [List.mem_cons, ih]; tauto

/-- An insertion keeps a list in the rising order of its keys. -/
theorem insertByKey_sorted {α : Type} (key : α → Nat) (x : α) {l : List α} (h : l.Pairwise (fun a b => key a ≤ key b)) :
    (insertByKey key x l).Pairwise (fun a b => key a ≤ key b) := by
  induction l with
  | nil => simp [insertByKey]
  | cons z rest ih =>
    obtain ⟨h1, h2⟩ := List.pairwise_cons.mp h
    simp only [insertByKey]
    split
    · rename_i hk
      refine List.pairwise_cons.mpr ⟨fun e he => ?_, h⟩
      rcases List.mem_cons.mp he with he | he
      · simpa [he] using hk
      · exact Nat.le_trans hk (h1 e he)
    · rename_i hk
      refine List.pairwise_cons.mpr ⟨fun e he => ?_, ih h2⟩
      rcases (mem_insertByKey ..).mp he with he | he
      · subst he; omega
      · exact h1 e he

/-! ### Fixed rows of records -/

/-- What stands at a place after a change of one place. -/
theorem updateAt_get {α : Type} {n : Nat} (v : Vector α n) (i j : Nat) (f : α → α) :
    (updateAt v i f)[j]? = if j = i then v[j]?.map f else v[j]? := by
  unfold updateAt
  cases h : v[i]? with
  | some x =>
    simp only [Vector.getElem?_setIfInBounds]
    by_cases hij : i = j
    · subst hij
      obtain ⟨hi, rfl⟩ := Vector.getElem?_eq_some_iff.mp h
      simp [hi]
    · simp [hij, Ne.symm hij]
  | none => by_cases hij : j = i <;> simp_all

/-- What stands at a place after a change of every place. -/
theorem updateAll_get {α : Type} {n : Nat} (v : Vector α n) (f : Nat → α → α) (j : Nat) :
    (updateAll v f)[j]? = v[j]?.map (f j) := by
  simp [updateAll, Vector.getElem?_mapIdx]

/-! ### Sets of numbers -/

@[simp] theorem mem_zero {n i : Nat} : mem (0#n) i = false := by simp [mem]

theorem mem_single {n : Nat} (i j : Nat) : mem (single n i) j = (decide (j < n) && decide (j = i)) := by
  simp only [mem, single, BitVec.getLsbD_ofNat, Nat.testBit_two_pow]
  by_cases h : i = j <;> simp [h, eq_comm]

/-- A member of a set with one added. -/
theorem mem_insertMember {n : Nat} (s : BitVec n) (i j : Nat) :
    mem (insertMember s i) j = (mem s j || (decide (j < n) && decide (j = i))) := by
  rw [← mem_single]; simp [mem, insertMember]

/-- A member of a set with one removed. -/
theorem mem_eraseMember {n : Nat} (s : BitVec n) (i j : Nat) : mem (eraseMember s i) j = (mem s j && !decide (j = i)) := by
  have h := mem_single (n := n) i j
  simp only [mem, eraseMember, BitVec.getLsbD_and, BitVec.getLsbD_not] at h ⊢
  rw [h]
  by_cases hj : j < n
  · simp [hj]
  · simp [hj, BitVec.getLsbD_of_ge s j (by omega)]

/-- The members of a set are its numbers below its width. -/
theorem mem_members {n : Nat} (s : BitVec n) (i : Nat) : i ∈ members s ↔ mem s i = true := by
  simp only [members, List.mem_filter, List.mem_range, and_iff_right_iff_imp]
  intro h; by_contra hn
  simp [mem, BitVec.getLsbD_of_ge s i (by omega)] at h

/-- What holds of every listed member of a set holds of every member. -/
theorem forall_mem {n : Nat} {s : BitVec n} {P : Nat → Prop} (h : ∀ i ∈ members s, P i) : ∀ i, mem s i = true → P i :=
  fun i hi => h i ((mem_members s i).2 hi)

theorem members_nodup {n : Nat} (s : BitVec n) : (members s).Nodup := List.nodup_range.filter _

/-- A member of the set made of a list. -/
theorem mem_ofMembers (n : Nat) (l : List Nat) (j : Nat) : mem (ofMembers n l) j = true ↔ j < n ∧ j ∈ l := by
  have key : ∀ (l : List Nat) (s : BitVec n), mem (l.foldl insertMember s) j = true ↔ mem s j = true ∨ (j < n ∧ j ∈ l) := by
    intro l
    induction l with
    | nil => simp
    | cons x rest ih =>
      intro s
      rw [List.foldl_cons, ih, mem_insertMember]
      simp only [Bool.or_eq_true, Bool.and_eq_true, decide_eq_true_eq, List.mem_cons]
      tauto
  rw [ofMembers, key]; simp

/-- Two sets with the same members are one. -/
theorem set_ext {n : Nat} {s t : BitVec n} (h : ∀ i, mem s i = mem t i) : s = t := by
  apply BitVec.eq_of_getLsbD_eq; intro i _; exact h i

end Sys2Proof
end

