-- ==== Sys2Proof/Tests/Slice0.lean ====
section
/-! SUPPORT. Tests of the model's writer: ill-formed commands that WellFormed refuses, frames written out from the manual's layouts, one-step
tests whose expected values are the manual's worked examples and tables, and for each statement a witness of its hypotheses. -/

open Sys2Proof Sys2Proof.Machine

namespace Sys2Proof.Tests

/-! ### Small states -/

/-- The state after a command. -/
def after (c : Instr) (s : State) : State :=
  match exec c s with
  | .next t => t
  | _ => s

/-- The result code of the reply in the buffer. -/
def result (s : State) : Option ResultCode :=
  match s.port.reply with
  | .held r => some r.result
  | _ => none

/-- RESET asserted, nothing else. -/
def held : State := { State.reset with resetHeld := true }

/-- Time valid at a standard day and second, offset 0, with today resolved. -/
def clockAt (d : Day) (n : Nat) : State :=
  { State.reset with
    time := { TimeBase.por with stdDay := d, stdSecond := n, valid := true }
    cal := { Calendar.por with today := some d } }

/-- The configuration of zone 18 (6.8). -/
def room : ZoneConfig :=
  { building := 2, division := 1, kind := .room, callSwitch := true, alertPattern := 6, alertDuration := 4, bellThreshold := .level 2,
    speakerThreshold := .level 4, auxThreshold := .level 3, bellForced := false, speakerForced := true, auxForced := true, upper := 8,
    lower := 2, window := 16 }

/-- Zone 18 with its start-tag counter at 3 (4.8). -/
def room18 : Zone := { newZone room with tagCounter := 3 }

/-- A state with a zone record. -/
def withZone (s : State) (z : Nat) (x : Zone) : State := { s with zones := s.zones.insert z x }

/-- A state with a line record. -/
def withLine (s : State) (n : Nat) (l : Line) : State := s.modifyLine n (fun _ => l)

/-- A state with an announcement record, its bus and its place in the arrival order. -/
def withRecord (s : State) (n : Nat) (a : Announcement) : State :=
  let s := { s with arb := { s.arb with slots := s.arb.slots.insert n a, arrival := s.arb.arrival ++ [n] } }
  match a.activeBus with
  | some b => s.setBus b (some { record := n, source := a.source })
  | none => s

/-- Pattern n with one step and a reference count. -/
def pattern1 (refs : Nat) : Pattern := { steps := [{ on := 4, off := 4 }], refs := refs }

/-- A state with patterns 0, 2, 3, 4, 6 and 9. -/
def withPatterns (s : State) : State :=
  { s with store := { s.store with patterns := s.store.patterns ++ [(2, pattern1 1), (3, pattern1 0), (4, pattern1 0), (6, pattern1 1),
      (9, pattern1 0)] } }

/-- The set of some zones. -/
def zones (l : List Nat) : ZoneSet := ofMembers 64 l

/-- An Active announcement. -/
def active (source : Nat) (priority : Priority) (coverage : Coverage) (zs : ZoneSet) (bus : Nat) (start : Counter) (m : Nat) :
    Announcement :=
  { source := source, priority := priority, coverage := coverage, requested := zs, held := zs, state := .active bus,
    arrivalSecond := start, startSecond := some start, maxDuration := some m, waitLimit := 0, talkBack := false, answering := none }

/-- Entry 11 of plan 4 (3.10, 4.8): 08:50:00, pattern 2, holdable, defer limit 60, duration 4. -/
def entry11 (zs : ZoneSet) : Entry :=
  { plan := 4, tag := 11, minute := 530, second := 0, mask := 3, zones := zs, action := .bell 2 4 true 60, validFrom := none,
    validUntil := none }

/-- Plan 4 of division 1. -/
def plan4 (count : Nat) : Plan :=
  { division := 1, tag := Vector.replicate 8 32, schoolDay := true, lateLimit := 2, entryCount := count }

/-- The fields of program 2 (9.12). -/
def program2 : ProgramFields :=
  { zones := zones [18], tone := 9, sounding := 120, target := 300, deadline := 480, muster := 12, allClear := 4, allClearDuration := 10 }

/-- An evacuation record of program 2 in a phase. -/
def evac (kind : EvacKind) (phase : Phase) : EvacRecord :=
  { kind := kind, program := some 2, startSecond := 5000, startCivil := { day := 702, second := 32520, valid := true }, phase := phase,
    drive := none, clears := Vector.replicate 8 none, musteredAt := none, overdue := false, musterLate := false, ampFaults := 0,
    panelCleared := false, fixedResult := none }

/-- A state at 09:02:00 with the counter at a value, base mode Hold, program 2 and zone 18, and an evacuation record (9.12). -/
def evacuating (counter : Counter) (panel : PanelState) (record : Option EvacRecord) : State :=
  let s := withPatterns (withZone (clockAt 702 32520) 18 room18)
  { s with
    time := { s.time with counter := counter }
    modes := { s.modes with
      base := .hold, panel := panel, programs := [(2, { fields := program2, lastResult := none })], record := record
      effective := effectiveModeOf { s.modes with base := .hold, panel := panel, record := record } } }

/-- A building record that is present and Online with its levels known. -/
def online : Building :=
  { Building.atRelease 3 1 2 with link := .online, levelsKnown := true, pending := 0 }

/-- A state with a building record. -/
def withBuilding (s : State) (n : Nat) (b : Building) : State := s.modifyBuilding n (fun _ => b)

/-! ### Ill-formed commands -/

/-- Numbers of one byte. -/
theorem smoke_one_byte :
    Instr.wf (.setBaseMode 256) = false ∧ Instr.wf (.release 256) = false ∧ Instr.wf (.answerCall 256) = false ∧
    Instr.wf (.clearCall 256) = false ∧ Instr.wf (.startDrill 256) = false ∧ Instr.wf (.markBuilding 256) = false ∧
    Instr.wf (.lineControlRun 256) = false ∧ Instr.wf (.lineControlStop 256) = false ∧ Instr.wf (.malformedRequest { code := 256, key := [] }) = false ∧
    Instr.wf (.malformedRequest { code := 0, key := [0, 0, 0, 0, 0] }) = false ∧
    Instr.wf (.lookupPlan 256) = false ∧ Instr.wf (.retirePlan 256) = false ∧ Instr.wf (.lookupEntry 256 0) = false ∧
    Instr.wf (.lookupEntry 0 256) = false ∧ Instr.wf (.retireEntry 256 0) = false ∧ Instr.wf (.retireEntry 0 256) = false ∧
    Instr.wf (.lookupOverride 256 0) = false ∧ Instr.wf (.retireOverride 256 0) = false ∧ Instr.wf (.lookupPattern 256) = false ∧
    Instr.wf (.retirePattern 256) = false ∧ Instr.wf (.lookupZone 256) = false ∧ Instr.wf (.retireZone 256) = false ∧
    Instr.wf (.lookupBuilding 256) = false ∧ Instr.wf (.lookupLine 256) = false ∧ Instr.wf (.retireProgram 256) = false ∧
    Instr.wf (.lookupProgram 256) = false ∧ Instr.wf (.lookupDivision 256) = false ∧ Instr.wf (.lookupAnnouncement 256) = false ∧
    Instr.wf (.retireAnnouncement 256) = false ∧ Instr.wf (.lookupCall 256) = false ∧ Instr.wf (.retireCall 256) = false := by
  decide

/-- Wider numbers: a second-of-day, a position, a signed offset, a minute and a shift. -/
theorem smoke_wide_numbers :
    Instr.wf (.setTime 0 16777216 none) = false ∧ Instr.wf (.setTime 0 0 (some 32768)) = false ∧
    Instr.wf (.setTime 0 0 (some (-32769))) = false ∧ Instr.wf (.timeReference 0 16777216) = false ∧
    Instr.wf (.lineControlSetPosition 256 0 none) = false ∧ Instr.wf (.lineControlSetPosition 0 65536 none) = false ∧
    Instr.wf (.amendShift 0 { minute := 65536, shift := 1 }) = false ∧
    Instr.wf (.amendShift 0 { minute := 0, shift := 32768 }) = false := by
  decide

/-- A NEXT key: its number, and the start byte 2 outside the ENTRY table. -/
theorem smoke_next_keys :
    Instr.wf (.nextPlan .given 256) = false ∧ Instr.wf (.nextPlan .fromPlan 0) = false ∧ Instr.wf (.nextEntry .given 256 0) = false ∧
    Instr.wf (.nextEntry .given 0 256) = false ∧ Instr.wf (.nextOverride .given 256 0) = false ∧
    Instr.wf (.nextOverride .fromPlan 0 0) = false ∧ Instr.wf (.nextShift .fromPlan 0) = false ∧
    Instr.wf (.nextPattern .given 256) = false ∧ Instr.wf (.nextPattern .fromPlan 0) = false ∧ Instr.wf (.nextZone .given 256) = false ∧
    Instr.wf (.nextZone .fromPlan 0) = false ∧ Instr.wf (.nextBuilding .given 256) = false ∧
    Instr.wf (.nextBuilding .fromPlan 0) = false ∧ Instr.wf (.nextLine .given 256) = false ∧ Instr.wf (.nextLine .fromPlan 0) = false ∧
    Instr.wf (.nextProgram .given 256) = false ∧ Instr.wf (.nextProgram .fromPlan 0) = false ∧
    Instr.wf (.nextDivision .given 256) = false ∧ Instr.wf (.nextDivision .fromPlan 0) = false ∧
    Instr.wf (.nextAnnouncement .given 256) = false ∧ Instr.wf (.nextAnnouncement .fromPlan 0) = false ∧
    Instr.wf (.nextCall .given 256) = false ∧ Instr.wf (.nextCall .fromPlan 0) = false := by
  decide

/-- Announcement fields that are well formed. -/
def fields : AnnounceFields :=
  { source := 3, priority := 2, coverage := 0, zones := zones [18], maxDuration := 180, waitLimit := 10, talkBack := false }

/-- The fields of ANNOUNCE. -/
theorem smoke_announce :
    Instr.wf (.announce { fields with source := 256 }) = false ∧ Instr.wf (.announce { fields with priority := 256 }) = false ∧
    Instr.wf (.announce { fields with coverage := 256 }) = false ∧ Instr.wf (.announce { fields with maxDuration := 65536 }) = false ∧
    Instr.wf (.announce { fields with waitLimit := 256 }) = false := by
  decide

/-- Plan fields that are well formed. -/
def planFields : PlanFields := { division := 1, tag := Vector.replicate 8 32, schoolDay := true, lateLimit := 2 }

/-- Entry fields that are well formed: AMEND (4, 11) of 3.10 with zones 18 and 26. -/
def entryFields : EntryFields :=
  { minute := 530, second := 0, mask := 3, zones := zones [18, 26], action := 0, pattern := 3, duration := 4, holdable := true,
    deferLimit := 60, validFrom := none, validUntil := none }

/-- The fields of the PLAN, ENTRY and OVERRIDE tables. -/
theorem smoke_plans_entries_and_overrides :
    Instr.wf (.amendPlan 256 planFields) = false ∧ Instr.wf (.amendPlan 0 { planFields with division := 256 }) = false ∧
    Instr.wf (.amendPlan 0 { planFields with lateLimit := 256 }) = false ∧ Instr.wf (.amendEntry 256 0 entryFields) = false ∧
    Instr.wf (.amendEntry 0 256 entryFields) = false ∧ Instr.wf (.amendEntry 0 0 { entryFields with minute := 65536 }) = false ∧
    Instr.wf (.amendEntry 0 0 { entryFields with second := 256 }) = false ∧
    Instr.wf (.amendEntry 0 0 { entryFields with action := 256 }) = false ∧
    Instr.wf (.amendEntry 0 0 { entryFields with pattern := 256 }) = false ∧
    Instr.wf (.amendEntry 0 0 { entryFields with duration := 256 }) = false ∧
    Instr.wf (.amendEntry 0 0 { entryFields with deferLimit := 256 }) = false ∧ Instr.wf (.amendOverride 256 0 .noSchool) = false ∧
    Instr.wf (.amendOverride 0 0 (.plan 256)) = false ∧ Instr.wf (.amendOverride 0 0 (.planSet 256 0)) = false ∧
    Instr.wf (.amendOverride 0 0 (.planSet 0 256)) = false ∧ Instr.wf (.amendOverride 0 0 (.other 2)) = false ∧
    Instr.wf (.amendOverride 0 0 (.other 256)) = false := by
  decide

/-- Zone fields that are well formed: zone 18 of 6.8 with U, L and W "default". -/
def zoneFields : ZoneFields :=
  { building := 2, division := 1, kind := 0, callSwitch := true, alertPattern := 6, alertDuration := 4, bellThreshold := .level 2,
    speakerThreshold := .level 4, auxThreshold := .level 3, bellForced := false, speakerForced := true, auxForced := true, upper := none,
    lower := none, window := none }

/-- The fields of the PATTERN and ZONE tables. -/
theorem smoke_patterns_and_zones :
    Instr.wf (.amendPattern 256 []) = false ∧ Instr.wf (.amendPattern 0 (List.replicate 126 { on := 1, off := 0 })) = false ∧
    Instr.wf (.amendPattern 0 [{ on := 256, off := 0 }]) = false ∧ Instr.wf (.amendPattern 0 [{ on := 0, off := 256 }]) = false ∧
    Instr.wf (.amendZone 256 zoneFields) = false ∧ Instr.wf (.amendZone 0 { zoneFields with building := 256 }) = false ∧
    Instr.wf (.amendZone 0 { zoneFields with division := 256 }) = false ∧ Instr.wf (.amendZone 0 { zoneFields with kind := 256 }) = false ∧
    Instr.wf (.amendZone 0 { zoneFields with alertPattern := 256 }) = false ∧
    Instr.wf (.amendZone 0 { zoneFields with alertDuration := 256 }) = false ∧
    Instr.wf (.amendZone 0 { zoneFields with bellThreshold := .level 5 }) = false ∧
    Instr.wf (.amendZone 0 { zoneFields with speakerThreshold := .level 5 }) = false ∧
    Instr.wf (.amendZone 0 { zoneFields with auxThreshold := .level 5 }) = false ∧
    Instr.wf (.amendZone 0 { zoneFields with upper := some 256 }) = false ∧
    Instr.wf (.amendZone 0 { zoneFields with lower := some 256 }) = false ∧
    Instr.wf (.amendZone 0 { zoneFields with window := some 256 }) = false := by
  decide +kernel

/-- Line fields that are well formed: line 5 of 5.14. -/
def lineFields : LineFields := { kind := 0, hold := 40, fast := 2, width := 8 }

/-- Division fields that are well formed: division 1 of 2.9. -/
def divisionFields : DivisionFields := { map := #v[some 4, some 4, some 4, some 4, some 4, none, none], cycleLength := 2 }

/-- Site fields that are well formed. -/
def siteFields : SiteFields := { epochWeekday := 0, keyEnable := true, clearWindows := 5, alarmProgram := 7 }

/-- The fields of the LINE, PROGRAM, DIVISION and SITE tables. -/
theorem smoke_lines_programs_divisions_and_site :
    Instr.wf (.amendLine 256 lineFields) = false ∧ Instr.wf (.amendLine 0 { lineFields with kind := 256 }) = false ∧
    Instr.wf (.amendLine 0 { lineFields with hold := 256 }) = false ∧ Instr.wf (.amendLine 0 { lineFields with fast := 256 }) = false ∧
    Instr.wf (.amendLine 0 { lineFields with width := 256 }) = false ∧ Instr.wf (.amendProgram 256 program2) = false ∧
    Instr.wf (.amendProgram 0 { program2 with tone := 256 }) = false ∧
    Instr.wf (.amendProgram 0 { program2 with sounding := 65536 }) = false ∧
    Instr.wf (.amendProgram 0 { program2 with target := 65536 }) = false ∧
    Instr.wf (.amendProgram 0 { program2 with deadline := 65536 }) = false ∧
    Instr.wf (.amendProgram 0 { program2 with allClear := 256 }) = false ∧
    Instr.wf (.amendProgram 0 { program2 with allClearDuration := 256 }) = false ∧ Instr.wf (.amendDivision 256 divisionFields) = false ∧
    Instr.wf (.amendDivision 0 { divisionFields with map := Vector.replicate 7 (some 255) }) = false ∧
    Instr.wf (.amendDivision 0 { divisionFields with cycleLength := 256 }) = false ∧
    Instr.wf (.amendSite { siteFields with epochWeekday := 256 }) = false ∧
    Instr.wf (.amendSite { siteFields with clearWindows := 256 }) = false ∧
    Instr.wf (.amendSite { siteFields with alarmProgram := 256 }) = false := by
  decide

/-- The place operands of events, and the fields of a report. -/
theorem smoke_events :
    Instr.wf (.waitDeadlineExpiry 16) = false ∧ Instr.wf (.automaticRetirement 16) = false ∧
    Instr.wf (.deferralDeadlineExpiry 64) = false ∧ Instr.wf (.soundingEnd 64) = false ∧ Instr.wf (.pulseCompletion 12) = false ∧
    Instr.wf (.fastPulseWait 12) = false ∧ Instr.wf (.lineFault 12 true false) = false ∧ Instr.wf (.codedFrameEnd 12) = false ∧
    Instr.wf (.goodReport { address := 256, zones := [], clear := false, ampFault := false, echo := none }) = false ∧
    Instr.wf (.goodReport { address := 2, zones := [{ zone := 256, count := 0, level := false }], clear := false, ampFault := false,
                            echo := none }) = false ∧
    Instr.wf (.goodReport { address := 2, zones := [{ zone := 0, count := 256, level := false }], clear := false, ampFault := false,
                            echo := none }) = false ∧
    Instr.wf (.goodReport { address := 2, zones := [], clear := false, ampFault := false, echo := some 255 }) = false ∧
    Instr.wf (.goodReport { address := 2, zones := List.replicate 256 { zone := 0, count := 0, level := false }, clear := false,
                            ampFault := false, echo := none }) = false := by
  decide +kernel
/-- Table 11-2: the action requests: one frame for each, written out byte by byte. -/
theorem decode_actions :
    decodeRequest [1, 10, 16, 0, 1, 156, 0, 112, 127, 1, 255, 196, 190, 7] = some (.setTime 412 28799 (some (-60))) ∧
    decodeRequest [1, 7, 17, 0, 1, 156, 0, 112, 128, 1, 126] = some (.timeReference 412 28800) ∧
    decodeRequest [1, 3, 18, 0, 2, 45, 192] = some (.setBaseMode 2) ∧
    decodeRequest [1, 17, 19, 0, 3, 2, 0, 0, 0, 15, 0, 0, 0, 0, 0, 0, 180, 10, 0, 206, 53] = some (.announce {
      source := 3, priority := 2, coverage := 0, zones := 0xF0000, maxDuration := 180, waitLimit := 10
      talkBack := false }) ∧
    decodeRequest [1, 3, 20, 0, 5, 239, 135] = some (.release 5) ∧
    decodeRequest [1, 3, 21, 0, 33, 188, 81] = some (.answerCall 33) ∧
    decodeRequest [1, 3, 22, 0, 33, 229, 1] = some (.clearCall 33) ∧
    decodeRequest [1, 3, 23, 0, 2, 198, 48] = some (.startDrill 2) ∧
    decodeRequest [1, 2, 24, 0, 22, 206] = some (.silence) ∧
    decodeRequest [1, 2, 25, 0, 37, 255] = some (.allClear) ∧
    decodeRequest [1, 3, 26, 0, 2, 132, 97] = some (.markBuilding 2) ∧
    decodeRequest [1, 6, 27, 0, 9, 0, 0, 0, 253, 153] = some (.lineControlRun 9) ∧
    decodeRequest [1, 6, 27, 0, 9, 1, 0, 0, 202, 169] = some (.lineControlStop 9) ∧
    decodeRequest [1, 9, 27, 0, 9, 2, 1, 1, 44, 1, 1, 210, 211] = some (.lineControlSetPosition 9 300 (some .b)) ∧
    decodeRequest [1, 2, 28, 0, 218, 10] = some (.readStatus) ∧
    decodeRequest [1, 7, 29, 0, 0, 5, 1, 7, 255, 229, 42] = some (.attention 5 (some 0x7FF)) := by
  decide +kernel

/-- Table 11-1: the PLAN and ENTRY tables: one frame for each, written out byte by byte. -/
theorem decode_plans_and_entries :
    decodeRequest [1, 3, 1, 1, 4, 100, 4] = some (.lookupPlan 4) ∧
    decodeRequest [1, 14, 2, 1, 4, 1, 82, 69, 71, 85, 76, 65, 82, 32, 1, 2, 48, 251] = some (.amendPlan 4 {
      division := 1, tag := #v[82, 69, 71, 85, 76, 65, 82, 32], schoolDay := true, lateLimit := 2 }) ∧
    decodeRequest [1, 3, 3, 1, 4, 10, 100] = some (.retirePlan 4) ∧
    decodeRequest [1, 4, 4, 1, 0, 4, 127, 243] = some (.nextPlan .given 4) ∧
    decodeRequest [1, 4, 1, 2, 4, 11, 167, 205] = some (.lookupEntry 4 11) ∧
    decodeRequest [1, 25, 2, 2, 4, 11, 2, 18, 0, 3, 0, 0, 15, 0, 0, 0, 0, 0, 0, 3, 4, 1, 60, 0, 1, 2, 198, 219, 93] = some (.amendEntry 4 11 {
      minute := 530, second := 0, mask := 3, zones := 0xF0000, action := 0, pattern := 3, duration := 4
      holdable := true, deferLimit := 60, validFrom := none, validUntil := some 710 }) ∧
    decodeRequest [1, 4, 3, 2, 4, 11, 74, 165] = some (.retireEntry 4 11) ∧
    decodeRequest [1, 5, 4, 2, 2, 4, 0, 204, 100] = some (.nextEntry .fromPlan 4 0) := by
  decide +kernel

/-- Table 11-1: the OVERRIDE and SHIFT tables: one frame for each, written out byte by byte. -/
theorem decode_overrides_and_shifts :
    decodeRequest [1, 5, 1, 3, 1, 2, 190, 44, 100] = some (.lookupOverride 1 702) ∧
    decodeRequest [1, 10, 2, 3, 1, 2, 195, 1, 1, 4, 1, 1, 2, 170] = some (.amendOverride 1 707 (.planSet 4 1)) ∧
    decodeRequest [1, 5, 3, 3, 1, 2, 191, 120, 198] = some (.retireOverride 1 703) ∧
    decodeRequest [1, 6, 4, 3, 1, 0, 0, 0, 73, 15] = some (.nextOverride .fromStart 0 0) ∧
    decodeRequest [1, 4, 1, 4, 1, 244, 244, 104] = some (.lookupShift 500) ∧
    decodeRequest [1, 8, 2, 4, 2, 198, 0, 120, 255, 196, 119, 0] = some (.amendShift 710 { minute := 120, shift := -60 }) ∧
    decodeRequest [1, 4, 3, 4, 1, 244, 25, 0] = some (.retireShift 500) ∧
    decodeRequest [1, 5, 4, 4, 0, 1, 244, 213, 243] = some (.nextShift .given 500) := by
  decide +kernel

/-- Table 11-1: the PATTERN and ZONE tables: one frame for each, written out byte by byte. -/
theorem decode_patterns_and_zones :
    decodeRequest [1, 3, 1, 5, 2, 200, 6] = some (.lookupPattern 2) ∧
    decodeRequest [1, 8, 2, 5, 2, 2, 4, 2, 8, 16, 161, 72] = some (.amendPattern 2 [{ on := 4, off := 2 }, { on := 8, off := 16 }]) ∧
    decodeRequest [1, 3, 3, 5, 2, 166, 102] = some (.retirePattern 2) ∧
    decodeRequest [1, 4, 4, 5, 0, 2, 195, 245] = some (.nextPattern .given 2) ∧
    decodeRequest [1, 3, 1, 6, 18, 143, 100] = some (.lookupZone 18) ∧
    decodeRequest [1, 21, 2, 6, 18, 2, 1, 0, 1, 6, 4, 2, 4, 5, 0, 1, 1, 0, 12, 1, 0, 1, 0, 170, 241] = some (.amendZone 18 {
      building := 2, division := 1, kind := 0, callSwitch := true, alertPattern := 6, alertDuration := 4
      bellThreshold := .level 2, speakerThreshold := .level 4, auxThreshold := .never, bellForced := false
      speakerForced := true, auxForced := true, upper := some 12, lower := none, window := none }) ∧
    decodeRequest [1, 3, 3, 6, 18, 225, 4] = some (.retireZone 18) ∧
    decodeRequest [1, 4, 4, 6, 0, 18, 136, 148] = some (.nextZone .given 18) := by
  decide +kernel

/-- Table 11-1: the BUILDING and LINE tables: one frame for each, written out byte by byte. -/
theorem decode_buildings_and_lines :
    decodeRequest [1, 3, 1, 7, 3, 190, 69] = some (.lookupBuilding 3) ∧
    decodeRequest [1, 4, 4, 7, 0, 3, 189, 180] = some (.nextBuilding .given 3) ∧
    decodeRequest [1, 7, 2, 8, 5, 0, 40, 2, 8, 178, 178] = some (.amendLine 5 { kind := 0, hold := 40, fast := 2, width := 8 }) ∧
    decodeRequest [1, 3, 1, 8, 5, 206, 189] = some (.lookupLine 5) ∧
    decodeRequest [1, 4, 4, 8, 1, 0, 146, 215] = some (.nextLine .fromStart 0) := by
  decide +kernel

/-- Table 11-1: the PROGRAM table: one frame for each, written out byte by byte. -/
theorem decode_programs :
    decodeRequest [1, 21, 2, 9, 2, 0, 0, 15, 0, 0, 0, 0, 0, 9, 0, 120, 1, 44, 1, 224, 12, 4, 10, 9, 70] = some (.amendProgram 2 {
      zones := 0xF0000, tone := 9, sounding := 120, target := 300, deadline := 480, muster := 12, allClear := 4
      allClearDuration := 10 }) ∧
    decodeRequest [1, 3, 3, 9, 2, 227, 11] = some (.retireProgram 2) ∧
    decodeRequest [1, 3, 1, 9, 2, 141, 107] = some (.lookupProgram 2) ∧
    decodeRequest [1, 4, 4, 9, 0, 2, 182, 148] = some (.nextProgram .given 2) := by
  decide +kernel

/-- Table 11-1: the DIVISION and SITE tables: one frame for each, written out byte by byte. -/
theorem decode_divisions_and_site :
    decodeRequest [1, 11, 2, 10, 1, 4, 4, 4, 4, 4, 255, 255, 2, 203, 42] = some (.amendDivision 1 {
      map := #v[some 4, some 4, some 4, some 4, some 4, none, none], cycleLength := 2 }) ∧
    decodeRequest [1, 3, 1, 10, 1, 232, 91] = some (.lookupDivision 1) ∧
    decodeRequest [1, 4, 4, 10, 0, 1, 223, 167] = some (.nextDivision .given 1) ∧
    decodeRequest [1, 6, 2, 11, 0, 1, 5, 7, 8, 85] = some (.amendSite {
      epochWeekday := 0, keyEnable := true, clearWindows := 5, alarmProgram := 7 }) ∧
    decodeRequest [1, 2, 1, 11, 30, 78] = some (.lookupSite) := by
  decide +kernel

/-- Table 11-1: the ANNOUNCEMENT and CALL tables: one frame for each, written out byte by byte. -/
theorem decode_announcements_and_calls :
    decodeRequest [1, 3, 1, 12, 3, 98, 191] = some (.lookupAnnouncement 3) ∧
    decodeRequest [1, 3, 3, 12, 3, 12, 223] = some (.retireAnnouncement 3) ∧
    decodeRequest [1, 4, 4, 12, 0, 3, 77, 69] = some (.nextAnnouncement .given 3) ∧
    decodeRequest [1, 3, 1, 13, 33, 85, 174] = some (.lookupCall 33) ∧
    decodeRequest [1, 3, 3, 13, 33, 59, 206] = some (.retireCall 33) ∧
    decodeRequest [1, 4, 4, 13, 0, 33, 126, 85] = some (.nextCall .given 33) := by
  decide +kernel

/-- R165: frames that do not decode: the last bit of the check is wrong (R172); request code 15 is none of those of Table 11-2; the BUILDING table takes no AMEND; the LINE table takes no RETIRE; a body one byte short; a body one byte long; a flag byte of 2; bit 11 of a class set (R170); start byte 2 outside the ENTRY table (Table 11-3). -/
theorem decode_refuses_malformed_frames :
    decodeRequest [1, 3, 20, 0, 5, 239, 134] = none ∧
    decodeRequest [1, 2, 15, 0, 140, 42] = none ∧
    decodeRequest [1, 3, 2, 7, 3, 231, 21] = none ∧
    decodeRequest [1, 3, 3, 8, 3, 192, 27] = none ∧
    decodeRequest [1, 2, 20, 0, 83, 163] = none ∧
    decodeRequest [1, 4, 20, 0, 5, 0, 236, 21] = none ∧
    decodeRequest [1, 17, 19, 0, 3, 2, 0, 0, 0, 15, 0, 0, 0, 0, 0, 0, 180, 10, 2, 238, 119] = none ∧
    decodeRequest [1, 5, 29, 0, 8, 0, 0, 134, 47] = none ∧
    decodeRequest [1, 4, 4, 1, 2, 4, 25, 145] = none := by
  decide +kernel

/-- Table 11-6: the report of building 2 with two zones, the clear level and an echo of pattern 6; and the same with a check that fails,
which is a miss (R157). -/
theorem decode_reports :
    linkCommand [2, 2, 18, 14, 0, 33, 0, 1, 1, 6, 191, 108] = .goodReport {
      address := 2, clear := true, ampFault := false, echo := some 6
      zones := [{ zone := 18, count := 14, level := false }, { zone := 33, count := 0, level := true }] } ∧
    linkCommand [2, 2, 18, 14, 0, 33, 0, 1, 1, 6, 191, 236] = .responseMiss := by
  decide +kernel

/-! ### Campus time (chapter 1) -/

/-- Table 1-2. -/
theorem test_civil_time :
    civilOf 100 1800 (-60) = { day := 99, second := 84600 } ∧ civilOf 0 1800 (-60) = { day := 65535, second := 84600 } ∧
    civilOf 65535 86000 720 = { day := 0, second := 42800 } ∧ civilOf 412 28800 60 = { day := 412, second := 32400 } := by
  decide +kernel

/-- R2: a tick of a second; a Sounding record loses one tick (R55). -/
theorem test_tick :
    (after (.tick false false) State.reset).time.elapsedTicks = 1 ∧
    ((after (.tick false false) (withZone State.reset 18 { room18 with bell := .sounding 2 4 64 4 })).zones.get 18).map (·.bell) =
      some (.sounding 2 4 63 4) := by
  decide

/-- R2: day 65 535 is followed by day 0. -/
theorem test_second_boundary :
    (after .secondBoundary { State.reset with time := { TimeBase.por with stdDay := 65535, stdSecond := 86399, elapsedTicks := 16 } }).time =
      { TimeBase.por with stdDay := 0, stdSecond := 0, counter := 1 } := by
  decide

/-- Table 1-4, the rows at ticks 5 and 20: the lengths and residuals of slewed seconds. -/
theorem test_slewed_seconds :
    ({ TimeBase.por with residual := 5, elapsedTicks := 16, refState := .slewing }.endSecond).secondLength = 15 ∧
    ({ TimeBase.por with residual := 5, elapsedTicks := 16, refState := .slewing }.endSecond).residual = 5 ∧
    ({ TimeBase.por with residual := 5, elapsedTicks := 15, secondLength := 15, refState := .slewing }.endSecond).residual = 4 ∧
    ({ TimeBase.por with residual := 1, elapsedTicks := 15, secondLength := 15, refState := .slewing }.endSecond).refState = .locked := by
  decide

/-- Table 1-4, the first pulse: label 28 800 at local 28 799 with 11 ticks elapsed gives +5, Slewing and a TIME event. -/
theorem test_first_pulse :
    let t := after .refPulse { clockAt 412 28799 with time := { (clockAt 412 28799).time with
      elapsedTicks := 11, pendingLabel := some { day := 412, second := 28800 } } }
    t.time.residual = 5 ∧ t.time.refState = .slewing ∧ t.time.stdSecond = 28799 ∧ mem t.attn.status 0 = true := by
  decide

/-- Table 1-4, the pulse at tick 32: the last label and one second, error +4. -/
theorem test_later_pulse :
    let t := after .refPulse { clockAt 412 28801 with time := { (clockAt 412 28801).time with
      elapsedTicks := 12, pulseAge := 16, refState := .slewing, residual := 4, lastLabel := some { day := 412, second := 28801 } } }
    t.time.residual = 4 ∧ t.time.refState = .slewing ∧ t.time.lastLabel = some { day := 412, second := 28802 } := by
  decide

/-- Table 1-3: pulse age 48 while Locked. -/
theorem test_reference_loss :
    (after .referenceLoss { State.reset with time := { TimeBase.por with refState := .locked, lastLabel := some { day := 1, second := 2 } } }).time
      = TimeBase.por := by
  decide

/-- R6 and R9: SET TIME makes time valid and resolves today. -/
theorem test_set_time :
    (after (.setTime 412 28799 (some 60)) State.reset).time.civil = { day := 412, second := 32399 } ∧
    (after (.setTime 412 28799 (some 60)) State.reset).cal.today = some 412 ∧
    (after (.setTime 412 28799 (some 60)) State.reset).time.valid = true := by
  decide

/-- 1.8, setting the time across a passed shift: the record of day 501 gives offset +60 and civil 04:00:00. -/
theorem test_passed_shift :
    let t := ({ clockAt 501 10800 with time := { (clockAt 501 10800).time with
      shifts := [{ day := 501, minute := 120, shift := 60 }] } } : State).passRecords { day := 500, second := 85800 }
    t.time.offset = 60 ∧ t.time.shifts = [] ∧ t.time.civil = { day := 501, second := 14400 } := by
  decide

/-- 1.8, the autumn shift of day 710 at 02:00:00. -/
theorem test_autumn_shift :
    let t := ({ clockAt 710 3600 with time := { (clockAt 710 3600).time with
      offset := 60, shifts := [{ day := 710, minute := 120, shift := -60 }] } } : State).applyDueShift { day := 710, second := 7200 }
    t.time.offset = 0 ∧ t.time.shifts = [] ∧ t.time.civil = { day := 710, second := 3600 } := by
  decide

/-- R10 and R14: TIME REFERENCE clamps a second above 86 399; the SHIFT table refuses while time is invalid and a shift of 0. -/
theorem test_labels_and_shifts :
    (after (.timeReference 412 90000) State.reset).time.pendingLabel = some { day := 412, second := 86399 } ∧
    result (after (.timeReference 412 90000) State.reset) = some .clamped ∧
    result (after (.amendShift 710 { minute := 120, shift := -60 }) State.reset) = some .timeInvalid ∧
    result (after (.amendShift 710 { minute := 120, shift := 0 }) (clockAt 500 0)) = some .range ∧
    (after (.amendShift 710 { minute := 120, shift := -60 }) (clockAt 500 0)).time.shifts =
      [{ day := 710, minute := 120, shift := -60 }] := by
  decide

/-! ### Calendar (chapter 2) -/

/-- Division 1 of 2.9 before the rollover into day 700, with plans 4 and 5. -/
def abWeek (today : Day) (d : Division) (overrides : List Override) : State :=
  { clockAt today 27600 with
    store := { State.reset.store with plans := [(4, plan4 0), (5, plan4 0)] }
    cal := { (clockAt today 0).cal with
      overrides := overrides
      divisions := #v[.por, { d with map := #v[some 4, some 4, some 4, some 4, some 4, none, none], cycleLength := 2 }, .por, .por] } }

/-- Some fields of division 1: today's plan, today's cycle day, last and previous school cycle day. -/
def counting (s : State) : Option Nat × Option Nat × Option Nat × Option Nat :=
  let d := s.cal.divisions[1]
  (d.todayPlan, d.todayCycle, d.lastCycle, d.previousCycle)

/-- Table 2-3, the rollovers into days 700 and 707 (the second under PLAN 4 SET 1). -/
theorem test_rollovers :
    counting ((abWeek 699 { Division.por with lastCycle := some 1, previousCycle := some 0, lastCounted := some 697 } []).rolloverCalendar 700) =
      (some 4, some 0, some 0, some 1) ∧
    counting ((abWeek 706 { Division.por with lastCycle := some 1, previousCycle := some 0, lastCounted := some 703 }
      [{ division := 1, day := 707, kind := .planSet 4 1 }]).rolloverCalendar 707) = (some 4, some 1, some 1, some 1) := by
  decide

/-- Table 2-3, day 702 at 07:40: PLAN 5 keeps the cycle day; day 703 at 06:50: NO SCHOOL takes the count back. -/
theorem test_overrides :
    counting (after (.amendOverride 1 702 (.plan 5)) (abWeek 702 { Division.por with
      todayPlan := some 4, schoolDay := true, todayCycle := some 0, lastCycle := some 0, previousCycle := some 1,
      lastCounted := some 702 } [])) = (some 5, some 0, some 0, some 1) ∧
    counting (after (.amendOverride 1 703 .noSchool) (abWeek 703 { Division.por with
      todayPlan := some 4, schoolDay := true, todayCycle := some 1, lastCycle := some 1, previousCycle := some 0,
      lastCounted := some 703 } [])) = (none, none, some 0, some 0) := by
  decide

/-- Table 2-3, day 703 at 06:55: RETIRE of the override counts the day again. -/
theorem test_retire_override :
    counting (after (.retireOverride 1 703) (abWeek 703 { Division.por with lastCycle := some 0, previousCycle := some 0 }
      [{ division := 1, day := 703, kind := .noSchool }])) = (some 4, some 1, some 1, some 0) := by
  decide

/-- R19 and R20: the clamps of the DIVISION and SITE tables. -/
theorem test_division_and_site :
    result (after (.amendDivision 1 { divisionFields with cycleLength := 9 }) State.reset) = some .clamped ∧
    (after (.amendDivision 1 { divisionFields with cycleLength := 9 }) State.reset).cal.divisions[1].cycleLength = 8 ∧
    result (after (.amendDivision 4 divisionFields) State.reset) = some .range ∧
    (after (.amendSite { siteFields with clearWindows := 31 }) State.reset).cal.site.clearWindows = 30 ∧
    result (after (.amendSite { siteFields with alarmProgram := 8 }) State.reset) = some .range := by
  decide

/-! ### Plans, entries and patterns (chapter 3) -/

/-- Plan 4 of 3.10 with some entries; zones 18 and 26 of division 1, zone 28 of division 2. -/
def planning (entries : List Entry) : State :=
  let s := withZone (withZone (withZone (withPatterns (clockAt 702 0)) 18 room18) 26 room18) 28 { room18 with config := { room with division := 2 } }
  { s with store := { s.store with plans := [(4, plan4 entries.length)], entries := entries } }

/-- Step 2 of 3.10. -/
theorem test_amend_entry :
    let t := after (.amendEntry 4 11 entryFields) (planning [])
    result t = some .ok ∧ t.store.entries.map (fun e => (e.tag, e.due)) = [(11, 31800)] ∧
      (t.store.plans.get 4).map (·.entryCount) = some 1 ∧ (t.store.patterns.get 3).map (·.refs) = some 1 := by
  decide

/-- Steps 3 to 6 of 3.10: a clamped duration, a conflict, a second five seconds later, a zone of another division. -/
theorem test_entry_checks :
    let s := planning [entry11 (zones [18, 26])]
    let f (m sec d : Nat) (zs : ZoneSet) (a : Nat) : EntryFields :=
      { entryFields with minute := m, second := sec, duration := d, zones := zs, action := a, pattern := 2 }
    result (after (.amendEntry 4 12 (f 475 0 45 (zones [18]) 0)) s) = some .clamped ∧
    (after (.amendEntry 4 12 (f 475 0 45 (zones [18]) 0)) s).store.entries.map (·.tag) = [12, 11] ∧
    result (after (.amendEntry 4 20 (f 530 0 4 (zones [26]) 1)) s) = some .conflict ∧
    result (after (.amendEntry 4 20 (f 530 5 4 (zones [26]) 1)) s) = some .ok ∧
    result (after (.amendEntry 4 21 (f 530 5 4 (zones [28]) 1)) s) = some .range := by
  decide

/-- Steps 8 to 10 of 3.10: the retirements of patterns 3 and 2, and an entry made dormant. -/
theorem test_patterns_in_use :
    let s := planning [entry11 (zones [18])]
    result (after (.retirePattern 3) s) = some .ok ∧ result (after (.retirePattern 2) s) = some .inUse ∧
    (after (.amendEntry 4 11 { entryFields with minute := 1500 }) s).store.entries.map (·.due) = [90000] ∧
    (after (.retireEntry 4 11) s).store.entries = [] ∧ ((after (.retireEntry 4 11) s).store.patterns.get 2).map (·.refs) = some 0 := by
  decide

/-- Table 3-3: pattern 3 sounded for 5 s. -/
theorem test_sounding :
    let steps : List PatternStep := [{ on := 4, off := 4 }, { on := 4, off := 12 }]
    cycleLengthOf steps = 24 ∧ (List.range 41).filter (soundingOn steps 5) =
      [0, 1, 2, 3, 8, 9, 10, 11, 24, 25, 26, 27, 32, 33, 34, 35] := by
  decide +kernel

/-- R35, R36, R45: a plan inserted with a clamped late limit, retired; a pattern with a clamped step. -/
theorem test_plans_and_patterns :
    ((after (.amendPlan 4 { planFields with lateLimit := 9 }) State.reset).store.plans.get 4).map (·.lateLimit) = some 5 ∧
    result (after (.retirePlan 4) (planning [])) = some .ok ∧ result (after (.retirePlan 4) (planning [entry11 0])) = some .inUse ∧
    ((after (.amendPattern 2 [{ on := 0, off := 40 }]) State.reset).store.patterns.get 2).map (·.steps) = some [{ on := 1, off := 32 }] ∧
    (after (.amendPattern 2 [{ on := 1, off := 1 }]) State.reset).link.buildings[0].pending = 5 := by
  decide

/-! ### Bell dispatch (chapter 4) -/

/-- Zone 18 held by an announcement and zone 21 free (4.8), at counter 0. -/
def passing : State :=
  withZone (withZone (clockAt 702 31800) 18 { room18 with claim := some { record := 5, bus := 1, talkBack := false } }) 21 room18

/-- Table 4-4, 08:50:00: entry 11 taken with lateness 0. -/
theorem test_passing_bell :
    let t := passing.takeEntry 0 (entry11 (zones [18, 21]))
    (t.zones.get 18).map (·.bell) = some (.deferred 2 4 0 60) ∧ (t.zones.get 21).map (·.bell) = some (.sounding 2 4 64 4) := by
  decide

/-- Table 4-6: a forward step with lateness 60 rings both zones; one with lateness 150 misses both. -/
theorem test_late_rule :
    let t := passing.takeLateEntry 2 31860 (entry11 (zones [18, 21]))
    let u := passing.takeLateEntry 2 31950 (entry11 (zones [18, 21]))
    (t.zones.get 18).map (·.bell) = some (.sounding 2 4 64 4) ∧ (t.zones.get 21).map (·.bell) = some (.sounding 2 4 64 4) ∧
    t.cal.divisions[1].missed = 0 ∧ (u.zones.get 21).map (·.bell) = some .idle ∧ u.cal.divisions[1].missed = 2 := by
  decide

/-- Table 4-5, 08:51:00: the deadline of 60 s expires and the bell cuts in; R55: a sounding that has run out ends. -/
theorem test_deadline_and_end :
    ((after (.deferralDeadlineExpiry 18) (withZone { clockAt 702 31860 with time := { (clockAt 702 31860).time with counter := 60 } } 18
      { room18 with bell := .deferred 2 4 0 60, claim := some { record := 5, bus := 1, talkBack := false } })).zones.get 18).map
        (fun x => (x.bell, x.cutIn)) = some (.sounding 2 4 64 4, true) ∧
    ((after (.soundingEnd 18) (withZone State.reset 18 { room18 with bell := .sounding 2 4 0 4 })).zones.get 18).map (·.bell) = some .idle ∧
    ((after (.soundingEnd 18) (withZone State.reset 18 { room18 with bell := .sounding 2 4 1 4 })).zones.get 18).map (·.bell) =
      some (.sounding 2 4 1 4) := by
  decide

/-! ### Clock lines (chapter 5) -/

/-- An Impulse line in a state, with position, hold limit and fast period. -/
def impulse (st : LineState) (p h f : Nat) : Line := { Line.por with state := st, position := p, hold := h, fast := f }

/-- 5.4, the worked correction and Table 5-3: the state and N at some distances. -/
theorem test_evaluation :
    let at_ (t p h f : Nat) : LineState × Nat := (((impulse .synced p h f).evaluate t).state, ((impulse .synced p h f).evaluate t).predicted)
    at_ 125 580 65 2 = (.advancing, 275) ∧ at_ 125 170 65 2 = (.holding, 0) ∧ at_ 719 0 1 2 = (.holding, 0) ∧
    at_ 719 0 0 2 = (.advancing, 744) ∧ at_ 719 0 0 15 = (.advancing, 959) ∧ at_ 1 0 65 1 = (.advancing, 2) ∧
    at_ 1 0 65 2 = (.advancing, 2) ∧ at_ 1 0 65 15 = (.advancing, 2) ∧ at_ 540 0 180 2 = (.holding, 0) ∧
    at_ 539 0 180 2 = (.advancing, (539 * 60 + 57) / 58) ∧ at_ 1 0 0 2 = (.advancing, 2) := by
  decide

/-- 5.13: lines 0 and 8 at the release, 40 minutes behind. Table 5-7: the autumn shift with H = 65 and with H = 40. -/
theorem test_worked_lines :
    ((impulse .synced 419 65 2).evaluate 459).predicted = 42 ∧ ((impulse .synced 419 65 15).evaluate 459).predicted = 54 ∧
    ({ impulse .synced 119 65 2 with owed := .waiting }.evaluate 60).state = .holding ∧
    ({ impulse .synced 119 40 2 with owed := .waiting }.evaluate 60).state = .advancing ∧
    ({ impulse .synced 119 40 2 with owed := .waiting }.evaluate 60).predicted = 683 ∧
    ({ impulse .synced 119 65 2 with owed := .waiting }.evaluate 180).predicted = 63 := by
  decide

/-- R77 and R78: a Synced line begins its minute pulse; line 11 of 5.13 becomes Synced without a pulse at its minute. -/
theorem test_minute_boundary :
    ((impulse .synced 479 65 2).minuteBoundary 480).1.owed = .waiting ∧
    (impulse .holding 480 65 2).minuteBoundary 480 = (impulse .synced 480 65 2, true) := by
  decide

/-- R82 to R85 on line 9 of 5.13, Stopped at 300: RUN at 07:39, SET POSITION beyond the dial, STOP, and AMEND to Coded. -/
theorem test_line_requests :
    let s := withLine (clockAt 702 27540) 9 (impulse .stopped 300 65 2)
    (after (.lineControlRun 9) s).lines[9].state = .advancing ∧ (after (.lineControlRun 9) s).lines[9].predicted = (159 * 60 + 57) / 58 ∧
    result (after (.lineControlSetPosition 9 720 none) s) = some .clamped ∧ (after (.lineControlSetPosition 9 459 none) s).lines[9].state = .synced ∧
    result (after (.lineControlStop 12) s) = some .range ∧ (after (.lineControlStop 9) (after (.lineControlRun 9) s)).lines[9].state = .stopped ∧
    (after (.amendLine 9 { lineFields with kind := 1 }) s).lines[9].kind = .coded ∧
    result (after (.amendLine 9 { lineFields with kind := 2 }) s) = some .range := by
  decide

/-- R71, R79, R80, R81, R88: the events of a line. -/
theorem test_line_events :
    let pulse (st : LineState) (since : Nat) : Line := { impulse st 458 65 2 with owed := .inProgress 0 .a 8, sinceStart := since, predicted := 3 }
    let s (l : Line) : State := withLine (clockAt 702 27540) 0 l
    (after (.pulseCompletion 0) (s (pulse .advancing 7))).lines[0].position = 458 ∧
    (after (.pulseCompletion 0) (s (pulse .advancing 8))).lines[0] = { impulse .synced 459 65 2 with polarity := .b, sinceStart := 8 } ∧
    mem (after (.pulseCompletion 0) (s (pulse .advancing 8))).attn.status 3 = true ∧
    (after (.fastPulseWait 0) (s { impulse .advancing 400 65 2 with sinceStart := 32 })).lines[0].owed = .waiting ∧
    (after (.fastPulseWait 0) (s { impulse .advancing 400 65 2 with sinceStart := 31 })).lines[0].owed = .none ∧
    (after (.lineFault 0 true true) (s (pulse .stopped 3))).lines[0].fault = .overcurrent ∧
    (after (.lineFault 0 true true) (s (pulse .stopped 3))).lines[0].position = 458 ∧
    (after (.codedFrameEnd 0) (s { impulse .following 0 65 2 with
      kind := .coded, frame := some { hour := 7, minute := 39, second := 31, ticks := 12 } })).lines[0].frame = none := by
  decide +kernel

/-- R72: with no free slot a waiting line goes on waiting. -/
theorem test_no_free_slot :
    let busy (k : Nat) : Line := { impulse .synced 0 65 2 with owed := .inProgress k .a 8 }
    let s := withLine (withLine (withLine (withLine (withLine State.reset 4 { impulse .synced 0 65 2 with owed := .waiting })
      0 (busy 0)) 1 (busy 1)) 2 (busy 2)) 3 (busy 3)
    after .pulseStart s = s := by
  decide

/-! ### Zones and composition (chapter 6) -/

/-- Table 6-4: the reports of zone 30. -/
theorem test_path :
    let show_ (z : Zone) : PathState × Nat × Nat × Bool := (z.path, z.accumulator, z.reports, z.firstWindow)
    let counts (l : List Nat) : Zone := l.foldl Zone.takeCount room18
    show_ (counts [0, 12]) = (.degraded, 0, 0, true) ∧ show_ (counts [0, 12, 3]) = (.degraded, 3, 1, true) ∧
    show_ (counts [0, 12, 3, 0, 0]) = (.degraded, 3, 3, true) ∧ show_ (counts [0, 12, 3, 0, 0, 0]) = (.degraded, 0, 0, false) ∧
    show_ (counts [0, 12, 3, 0, 0, 0, 10]) = (.degraded, 0, 0, false) ∧
    show_ (counts ([0, 12, 3, 0, 0, 0, 10] ++ List.replicate 15 0)) = (.degraded, 0, 15, false) ∧
    show_ (counts ([0, 12, 3, 0, 0, 0, 10] ++ List.replicate 15 0 ++ [2])) = (.good, 0, 0, false) := by
  decide

/-- Table 6-6: what zone 18 delivers after each event of its morning. -/
theorem test_morning :
    let claim : Option Claim := some { record := 5, bus := 1, talkBack := false }
    let mode (m : Mode) : State := { State.reset with modes := { State.reset.modes with effective := m } }
    let drill := evacuating 5000 .normal (some { evac .drill .sounding with drive := some { tone := .evacuation, ticks := 1920, tags := [(18, 5)] } })
    deliveredOf (mode .normal) 18 { room18 with claim := claim } =
      { bell := .off, bellLayer := .job, speaker := .bus 1, speakerLayer := .job, aux := false, auxLayer := .job } ∧
    deliveredOf (mode .normal) 18 { room18 with claim := claim, bell := .sounding 6 4 64 4 } =
      { bell := .sounding 6 4 32, bellLayer := .job, speaker := .off, speakerLayer := .job, aux := false, auxLayer := .job } ∧
    deliveredOf (mode .hold) 18 { room18 with claim := claim } =
      { bell := .off, bellLayer := .forced, speaker := .bus 1, speakerLayer := .job, aux := false, auxLayer := .job } ∧
    deliveredOf drill 18 room18 =
      { bell := .sounding 9 5 960, bellLayer := .evacuation, speaker := .off, speakerLayer := .job, aux := true, auxLayer := .forced } ∧
    deliveredOf (mode .alarm) 18 room18 =
      { bell := .off, bellLayer := .forced, speaker := .bus 0, speakerLayer := .forced, aux := true, auxLayer := .forced } := by
  decide

/-- R92 to R94: a zone inserted with "default" limits, its building and pattern counted; refusals; its retirement. -/
theorem test_zone_requests :
    let s := withPatterns State.reset
    let t := after (.amendZone 18 zoneFields) s
    result t = some .ok ∧ (t.zones.get 18).map (·.config) = some room ∧ t.zoneCounts[2] = 1 ∧
    (t.store.patterns.get 6).map (·.refs) = some 2 ∧ result (after (.amendZone 64 zoneFields) s) = some .range ∧
    result (after (.amendZone 18 { zoneFields with alertPattern := 7 }) s) = some .notFound ∧
    (after (.retireZone 18) t).zones = [] ∧ (after (.retireZone 18) t).zoneCounts[2] = 0 := by
  decide

/-! ### Announcements and calls (chapters 7 and 8) -/

/-- The three announcements of 7.12 at counter 1 040, each zone set cut to two zones. -/
def threeActive : State :=
  let hold (s : State) (n b : Nat) (l : List Nat) : State :=
    s.forEach l (fun s z => withZone s z { newZone room with claim := some { record := n, bus := b, talkBack := false } })
  let s := { State.reset with time := { TimeBase.por with counter := 1040, valid := true } }
  let s := hold (hold (hold s 0 1 [16, 20]) 1 2 [40, 43]) 2 3 [21, 25]
  let s := withZone s 26 (newZone room)
  withRecord (withRecord (withRecord s 0 (active 1 .routine .any (zones [16, 20]) 1 1000 300)) 1
    (active 0 .office .all (zones [40, 43]) 2 1005 120)) 2 (active 2 .routine .all (zones [21, 25]) 3 1010 300)

/-- 7.12 at 1 040: the Urgent request takes slot 3 and bus 3; record 2 is Preempted and record 0 ends ZonesLost. -/
theorem test_preemption :
    let t := after (.announce { fields with zones := zones [16, 20, 21, 25, 26] }) threeActive
    (t.arb.slots.get 3).map (fun a => (a.state, a.held)) = some (.active 3, zones [16, 20, 21, 25, 26]) ∧
    (t.arb.slots.get 2).map (·.state) = some (.ended .preempted 1040 t.time.stamp) ∧
    (t.arb.slots.get 0).map (·.state) = some (.ended .zonesLost 1040 t.time.stamp) ∧
    t.arb.arrival = [1, 3] ∧ t.arb.buses[1] = none ∧ t.arb.buses[3] = some { record := 3, source := 3 } ∧
    (t.zones.get 21).bind (·.claim) = some { record := 3, bus := 3, talkBack := false } := by
  decide +kernel

/-- R116 and R120: the maximum duration of record 1 expires at 1 125; RELEASE and RETIRE of record 1. -/
theorem test_ends :
    let s := { threeActive with time := { threeActive.time with counter := 1125 } }
    ((after .maximumDurationExpiry s).arb.slots.get 1).map (fun a => stateEnd a.state |>.map (·.1)) = some (some .expired) ∧
    ((after .maximumDurationExpiry s).arb.slots.get 0).map (·.state) = some (.active 1) ∧
    ((after (.release 1) threeActive).zones.get 40).bind (·.claim) = none ∧ (after (.release 1) threeActive).arb.buses[2] = none ∧
    ((after (.retireAnnouncement 1) threeActive).arb.slots.get 1).isNone = true ∧
    result (after (.release 3) threeActive) = some .notFound := by
  decide +kernel

/-- R117 and R118: a Waiting record at its deadline; an Ended record thirty seconds after its end. -/
theorem test_deadlines :
    let waiting : Announcement := { active 3 .urgent .all (zones [18]) 1 1000 180 with
      state := .waiting, held := 0, startSecond := none, waitLimit := 10, answering := some 18 }
    let at_ (n : Counter) : State := { State.reset with time := { TimeBase.por with counter := n } }
    ((after (.waitDeadlineExpiry 3) (withRecord (at_ 1009) 3 waiting)).arb.slots.get 3).map (·.state) = some .waiting ∧
    ((after (.waitDeadlineExpiry 3) (withRecord (at_ 1010) 3 waiting)).arb.slots.get 3).map (fun a => (stateEnd a.state).map (·.1)) =
      some (some .waitExpired) ∧
    mem (after (.waitDeadlineExpiry 3) (withRecord (at_ 1010) 3 waiting)).attn.status 6 = true ∧
    (after (.automaticRetirement 3) (withRecord (at_ 1029) 3 { waiting with state := .ended .released 1000 (at_ 0).time.stamp })).arb.slots.length = 1 ∧
    (after (.automaticRetirement 3) (withRecord (at_ 1030) 3 { waiting with state := .ended .released 1000 (at_ 0).time.stamp })).arb.slots = [] := by
  decide

/-- 8.6: presses of zones 33 and 18, a repeat, and a press in Drill. -/
theorem test_presses :
    let s : State := { State.reset with calls := { calls := [newCall State.reset 33, newCall State.reset 18], overflow := false } }
    (State.reset.press 33).calls.calls.map (fun c => (c.zone, c.repeats)) = [(33, 0)] ∧ mem (State.reset.press 33).attn.status 6 = true ∧
    (s.press 33).calls.calls.map (fun c => (c.zone, c.repeats)) = [(33, 1), (18, 0)] ∧
    ((evacuating 5000 .normal (some (evac .drill .sweep))).press 34).calls.calls.map (·.duringEvacuation) = [true] := by
  decide

/-- 8.6: ANSWER CALL of a room held by an Urgent announcement waits; of a free one is granted with talk-back; CLEAR CALL. -/
theorem test_answers :
    let s : State := { withZone State.reset 33 (newZone room) with calls := { calls := [newCall State.reset 33], overflow := true } }
    let u := withRecord (withZone s 33 { newZone room with claim := some { record := 6, bus := 3, talkBack := false } }) 6
      (active 3 .urgent .all (zones [33]) 3 0 180)
    ((after (.answerCall 33) u).arb.slots.get 0).map (·.state) = some .waiting ∧ (after (.answerCall 33) u).calls.calls.length = 1 ∧
    ((after (.answerCall 33) s).zones.get 33).bind (·.claim) = some { record := 0, bus := 1, talkBack := true } ∧
    (after (.answerCall 33) s).calls.calls = [] ∧ result (after (.answerCall 34) s) = some .notFound ∧
    (after (.clearCall 33) s).calls = { calls := [], overflow := false } ∧ (after (.retireCall 33) s).calls.calls = [] := by
  decide +kernel

/-! ### Modes and evacuation (chapter 9) -/

/-- 9.12 at 5 000: START DRILL of program 2 under Hold. -/
theorem test_start_drill :
    let t := after (.startDrill 2) (evacuating 5000 .normal none)
    t.modes.effective = .drill ∧ (t.modes.record.map (·.phase)) = some .sounding ∧
    (t.modes.record.bind (·.drive)) = some { tone := .evacuation, ticks := 1920, tags := [(18, 4)] } ∧
    result (after (.startDrill 3) (evacuating 5000 .normal none)) = some .notFound ∧
    result (after (.setBaseMode 3) State.reset) = some .range ∧ (after (.setBaseMode 1) State.reset).modes.effective = .quiet := by
  decide

/-- 9.12: building 2 clears 30 s in; the target at 300 s; MARK BUILDING of the last building completes the muster; SILENCE. -/
theorem test_muster :
    let cleared := { evac .drill .sweep with clears := (evac .drill .sweep).clears.set 2 (some { second := 30, manual := false }) }
    (((evacuating 5030 .normal (some (evac .drill .sweep))).risingClear 2).modes.record.map (·.clears[2])) =
      some (some { second := 30, manual := false }) ∧
    ((after .evacuationTargetExpiry (evacuating 5300 .normal (some cleared))).modes.record.map (·.overdue)) = some true ∧
    ((after .evacuationTargetExpiry (evacuating 5299 .normal (some cleared))).modes.record.map (·.overdue)) = some false ∧
    ((after .musterDeadlineExpiry (evacuating 5480 .normal (some cleared))).modes.record.map (·.musterLate)) = some true ∧
    ((after (.markBuilding 3) (evacuating 5300 .normal (some cleared))).modes.record.map (fun r => (r.phase, r.musteredAt))) =
      some (.mustered, some 300) ∧
    ((after .silence (evacuating 5030 .normal (some { evac .drill .sounding with drive := some { tone := .evacuation, ticks := 9, tags := [] } }))).modes.record.map
      (·.phase)) = some .sweep ∧
    ((after .evacuationToneEnd (evacuating 5120 .normal (some { evac .drill .sounding with drive := some { tone := .evacuation, ticks := 0, tags := [] } }))).modes.record.map
      (·.phase)) = some .sweep := by
  decide

/-- 9.12 at 5 400, 5 610 and 5 625: ALL CLEAR refused while the panel is in Alarm, then taken, and the close. -/
theorem test_all_clear :
    let alarm := { evac .alarm .mustered with musteredAt := some 260, overdue := true }
    let closing := { alarm with phase := .closing, fixedResult := some .completed, drive := some { tone := .allClear, ticks := 0, tags := [] } }
    result (after .allClear (evacuating 5400 .alarm (some alarm))) = some .panelActive ∧
    ((after .allClear (evacuating 5610 .normal (some alarm))).modes.record.map (fun r => (r.phase, r.fixedResult))) =
      some (.closing, some .completed) ∧
    (after .allClearToneEnd (evacuating 5625 .normal (some closing))).modes.effective = .hold ∧
    ((after .allClearToneEnd (evacuating 5625 .normal (some closing))).modes.programs.get 2).bind (fun p => p.lastResult.map (·.result)) =
      some .completed := by
  decide

/-- 9.12 at 5 040: the second alarm-indicating window; the drill closes Superseded and an Alarm record of program 7 (here none) stands. -/
theorem test_panel_alarm :
    let s := evacuating 5040 .normal (some (evac .drill .sweep))
    let t := after .panelWindowEnd { s with modes := { s.modes with windowTicks := 32, lastSample := true, alarmRun := 1 } }
    t.modes.panel = .alarm ∧ t.modes.effective = .alarm ∧ (t.modes.record.map (·.kind)) = some .alarm ∧
    ((t.modes.programs.get 2).bind (fun p => p.lastResult.map (·.result))) = some .superseded ∧
    (after .panelWindowEnd { s with modes := { s.modes with windowTicks := 32, lastSample := true } }).modes.alarmRun = 1 := by
  decide

/-- R139: a long press starts the drill of program 0 when the key is enabled, and a short press is reported. -/
theorem test_key :
    let s := evacuating 5000 .normal none
    let u := { s with
      cal := { s.cal with site := { s.cal.site with keyEnable := true } }
      modes := { s.modes with key := .timing 48, programs := [(0, { fields := program2, lastResult := none })] } }
    ((after .keyLongPress u).modes.record.map (·.program)) = some (some 0) ∧
    mem (after .keyLongPress { s with modes := { s.modes with key := .timing 48 } }).attn.status 10 = true ∧
    (after .keyShortPress { s with modes := { s.modes with key := .released 9 } }).modes.key = .ready := by
  decide

/-- R141 and R142: a program's clamps, and its retirement. -/
theorem test_program_requests :
    let s := withPatterns (withZone State.reset 18 room18)
    ((after (.amendProgram 2 { program2 with sounding := 9, deadline := 100 }) s).modes.programs.get 2).map
      (fun p => (p.fields.sounding, p.fields.deadline)) = some (10, 300) ∧
    (((after (.amendProgram 2 program2) s).store.patterns.get 9).map (·.refs)) = some 1 ∧
    (after (.retireProgram 2) (evacuating 5000 .normal none)).modes.programs = [] ∧
    result (after (.retireProgram 2) (evacuating 5000 .normal (some (evac .drill .sweep)))) = some .inUse := by
  decide

/-! ### Building link (chapter 10) -/

/-- A link whose slot is open, with building 2 Online. -/
def linked (misses slot : Nat) : State :=
  let s := withBuilding (withPatterns State.reset) 2 { online with misses := misses, pending := 17 }
  { s with link := { s.link with slotOpen := true, slotCounter := slot, lastPolled := some 1 } }

/-- 10.10: building 2 is polled after unit 1, with its lowest pending pattern; a probe slot with no Lost unit is ordinary. -/
theorem test_poll :
    let t := after .poll (linked 0 0)
    t.link.lastPolled = some 2 ∧ (t.link.lastFrame.map (fun f => (f.address, f.pattern.map (·.1)))) = some (2, some 0) ∧
    t.link.exchange = some { building := 2, probe := false } ∧ after .probe (linked 0 0) = linked 0 0 := by
  decide

/-- 10.10 at tick 10: the third miss makes building 2 Lost and degrades its zones; at tick 32 the probe finds it. -/
theorem test_lost_and_found :
    let s := withZone (linked 2 3) 18 room18
    let t := after .responseMiss { s with link := { s.link with exchange := some { building := 2, probe := false } } }
    let lost := withBuilding (withPatterns (withZone State.reset 18 (room18.degrade))) 2 { online with link := .lost, misses := 3, levelsKnown := false }
    let u := after (.goodReport { address := 2, zones := [{ zone := 18, count := 0, level := true }], clear := true, ampFault := false, echo := none })
      { lost with link := { lost.link with exchange := some { building := 2, probe := true } } }
    t.link.buildings[2].link = .lost ∧ t.link.buildings[2].misses = 3 ∧ (t.zones.get 18).map (·.path) = some .degraded ∧
    mem t.attn.status 9 = true ∧ mem t.attn.status 4 = true ∧
    u.link.buildings[2].link = .online ∧ members u.link.buildings[2].pending = [0, 2, 3, 4, 6, 9] ∧
    (u.zones.get 18).map (·.reports) = some 1 ∧ u.calls.calls = [] ∧ mem u.link.buildings[2].callLevels 18 = true := by
  decide +kernel

/-! ### Command port and attention (chapter 11) -/

/-- R164: the markers of a read frame, and a reply read to its end. SILENCE without a record: length 3, code 24, NOT_FOUND, no flag. -/
theorem test_read_frame :
    let s := after .silence State.reset
    (after (.readFrame 3) State.reset).port.output = [0, 0, 0] ∧
    (after (.readFrame 2) (after .requestFrameDiscarded State.reset)).port.output = [1, 0] ∧
    ((after (.readFrame 7) s).port.output.take 5) = [2, 3, 24, 2, 0] ∧ (after (.readFrame 7) s).port.reply = .empty ∧
    (after (.readFrame 6) s).port.reply = s.port.reply := by
  decide +kernel

/-- R165, R168, R170: a malformed request, READ STATUS, and ATTENTION serving classes 0 and 2. -/
theorem test_port_requests :
    let s : State := { State.reset with attn := { status := 5, enable := 1 } }
    result (after (.malformedRequest { code := 99, key := [] }) State.reset) = some .malformed ∧ result (after .readStatus State.reset) = some .ok ∧
    (statusView State.reset).lines.unset = 12 ∧ (statusView State.reset).patterns = 1 ∧
    (after (.attention 1 none) s).attn = { status := 4, enable := 1 } ∧
    (after (.attention 5 (some 0x7FF)) s).attn = { status := 0, enable := 0x7FF } ∧ s.attnActive = true ∧
    (after (.attention 1 none) s).attnActive = false := by
  decide

/-- R105, R150, R162: a reset during a drill closes it Interrupted; the release samples the straps and makes every pattern pending. -/
theorem test_resets :
    let t := after .systemResetAssert (evacuating 5030 .normal (some (evac .drill .sweep)))
    let u := after (.systemResetRelease { units := 3, rate := .mbit1, panelActiveHigh := false }) t
    t.modes.record = none ∧ t.modes.effective = .hold ∧ t.resetHeld = true ∧
    ((t.modes.programs.get 2).bind (fun p => p.lastResult.map (·.result))) = some .interrupted ∧
    u.resetHeld = false ∧ u.link.buildings[3].present = true ∧ u.link.buildings[4].present = false ∧
    members u.link.buildings[3].pending = [0, 2, 3, 4, 6, 9] ∧
    (after (.powerOnReset { units := 3, rate := .mbit1, panelActiveHigh := false }) t).link.buildings[3].pending = 1 := by
  decide +kernel

/-! ### Witnesses: states and operands that meet the hypotheses of the statements -/

/-- A state in which much is going on: a drill of program 2 in Sweep, zone 18 held by an Urgent announcement in slot 5 on bus 1, a call from it,
an entry of plan 4, a pulse on line 0, and SILENCE waiting. -/
def rich : State :=
  let s := evacuating 5000 .normal (some (evac .drill .sweep))
  let s := withZone s 18 { room18 with claim := some { record := 5, bus := 1, talkBack := false } }
  let s := withRecord s 5 (active 3 .urgent .all (zones [18]) 1 4990 180)
  let s := withLine s 0 { impulse .synced 500 65 2 with owed := .inProgress 0 .a 8, sinceStart := 3 }
  { s with
    zoneCounts := s.zoneCounts.set 2 1
    store := { plans := [(4, plan4 1)], entries := [entry11 (zones [18])],
               patterns := [(0, { steps := [{ on := 32, off := 0 }], refs := 0 }), (2, pattern1 1), (4, pattern1 1), (6, pattern1 1), (9, pattern1 1)] }
    calls := { calls := [newCall s 18], overflow := false }
    pending := [.silence] }

theorem rich_lines : LinesLaw rich := by
  have all : ∀ l ∈ rich.lines.toList, l = .por ∨ l = { impulse .synced 500 65 2 with owed := .inProgress 0 .a 8, sinceStart := 3 } := by
    decide
  refine ⟨fun l h => ?_, by decide⟩
  obtain rfl | rfl := all l h <;> simp [Line.lawful, OwedPulse.lawful, Line.por, impulse]

theorem rich_time : TimeLaw rich := by
  have shifts : rich.time.shifts = [] := rfl
  have pending : rich.time.pendingLabel = none := rfl
  have last : rich.time.lastLabel = none := rfl
  unfold TimeLaw
  rw [shifts, pending, last]
  simp only [reduceCtorEq, false_implies, implies_true, true_and]
  decide

theorem rich_calendar : CalendarLaw rich := by
  have all : ∀ d ∈ rich.cal.divisions.toList, d = .por := by decide
  have at_ (v : Nat) (d : Division) (h : rich.cal.divisions[v]? = some d) : d = .por := by
    obtain ⟨hv, h⟩ := Vector.getElem?_eq_some_iff.1 h
    exact all d (by rw [← h]; exact Vector.mem_toList_iff.2 (Vector.getElem_mem hv))
  refine ⟨by decide, by decide, fun d h => ?_, fun v d n h hn => ?_, fun _ v d h => ?_, by decide, by decide, ?_, by decide⟩
  · obtain rfl := all d h
    simp [Division.lawful, Division.por]
  · obtain rfl := at_ v d h
    simp [Division.por] at hn
  · obtain rfl := at_ v d h
    obtain ⟨hv, _⟩ := Vector.getElem?_eq_some_iff.1 h
    interval_cases v <;> rfl
  · simp [show rich.cal.overrides = [] from rfl]

theorem rich_modes : ModeLaw rich := by
  have key : rich.modes.key = .spent := rfl
  unfold ModeLaw
  rw [key]
  simp only [reduceCtorEq, false_implies, implies_true, and_true]
  decide

theorem rich_evacuation : EvacuationLaw rich := by
  refine ⟨fun e h => ?_, fun r h => ?_, fun h => by revert h; decide⟩
  · obtain rfl : e = (2, { fields := program2, lastResult := none }) := by
      simpa [show rich.modes.programs = [(2, { fields := program2, lastResult := none })] from rfl] using h
    exact ⟨by decide, by decide, by decide, by decide, by decide, by decide, by decide, by decide, by decide, forall_mem (by decide)⟩
  have : r = evac .drill .sweep := by
    have : rich.modes.record = some (evac .drill .sweep) := by decide
    simpa [this] using h.symm
  subst this
  refine ⟨by decide, fun d hd => by simp [evac] at hd, by decide, by decide, by decide, ?_, by decide⟩
  rintro p ⟨⟩
  decide

theorem rich_store : StoreLaw rich := by
  have entries : rich.store.entries = [entry11 (zones [18])] := rfl
  refine ⟨by decide, by decide, by decide, fun n => ?_, by decide, fun e h => ?_⟩
  · exact (List.length_filter_le _ _).trans (by decide)
  · obtain rfl : e = entry11 (zones [18]) := by simpa [entries] using h
    refine ⟨fun p d h l ha => ?_, fun p z hp hz => ?_⟩
    · simp [entry11] at ha
      omega
    · have held : rich.store.plans.get 4 = some (plan4 1) := rfl
      obtain rfl := Option.some.inj (held.symm.trans hp)
      have all : ∀ z, mem (zones [18]) z = true → z = 18 := forall_mem (by decide)
      obtain rfl := all z hz
      exact ⟨_, rfl, rfl⟩

theorem rich_zones : ZonesLaw rich := by
  intro e h
  obtain rfl : e = (18, { room18 with claim := some { record := 5, bus := 1, talkBack := false } }) := by
    simpa [show rich.zones = [(18, { room18 with claim := some { record := 5, bus := 1, talkBack := false } })] from rfl] using h
  refine ⟨?_, trivial, by decide, by decide, by decide, by decide, by decide⟩
  unfold ZoneConfig.lawful
  decide

theorem rich_link : LinkLaw rich := by
  refine ⟨fun b h => ?_, by decide, fun m h => ?_, fun x h => ?_⟩
  · have all : ∀ b ∈ rich.link.buildings.toList, b = Building.atRelease 0 1 0 ∨ b = Building.atRelease 0 1 1 := by decide
    obtain rfl | rfl := all b h <;> simp [Building.lawful, Building.atRelease]
  · simp [show rich.link.lastPolled = none from rfl, show rich.link.lastProbed = none from rfl] at h
  · simp [show rich.link.exchange = none from rfl] at h

theorem rich_tables : TablesLaw rich := by
  unfold TablesLaw Table.Sorted
  decide

theorem rich_zone_counts : ZoneCountLaw rich := by
  unfold ZoneCountLaw
  decide +kernel

theorem rich_counts : CountsLaw rich := by
  refine ⟨Table.forall_get (by decide), fun p h => ?_, Table.forall_get (by decide), by decide⟩
  by_cases hp : p < 16
  · have all : ∀ p < 16, 0 < namings rich p → (rich.store.patterns.get p).isSome = true := by decide
    exact all p hp h
  · have entries : rich.store.entries = [entry11 (zones [18])] := rfl
    have held : rich.zones = [(18, { room18 with claim := some { record := 5, bus := 1, talkBack := false } })] := rfl
    have programs : rich.modes.programs = [(2, { fields := program2, lastResult := none })] := rfl
    have far (k : Nat) (hk : k < 16) : (k == p) = false := by simp; omega
    simp [namings, entries, held, programs, entry11, Entry.patternNamed, room18, newZone, room, program2, far] at h

theorem live_of_check {s : State} (allowed : ∀ e ∈ s.arb.slots, e.2.live = true → modeAllows s.modes.effective e.2.priority = true)
    (sources : s.arb.slots.Pairwise (fun a b => a.2.live = true → b.2.live = true → a.2.source ≠ b.2.source)) (once : s.arb.arrival.Nodup)
    (arrived : ∀ n ∈ s.arb.arrival, (s.arb.slots.get n).map (·.live) = some true) (held : ∀ e ∈ s.arb.slots, e.2.live = true → e.1 ∈ s.arb.arrival) :
    LiveLaw s := by
  refine ⟨allowed, sources, once, fun n => ⟨fun h => ?_, fun ⟨a, h, l⟩ => held _ (Table.mem_of_get h) l⟩⟩
  simpa using arrived n h

theorem rich_live : LiveLaw rich := live_of_check (by decide) (by decide) (by decide) (by decide) (by decide)

/-- Whether R113's law holds of a state written out, judged record by record. -/
def claimsHold (s : State) : Bool :=
  s.zones.all (fun e => match e.2.claim with
    | none => !e.2.bell.isDeferred
    | some c => match s.arb.slots.get c.record with
      | some a => a.state == .active c.bus && mem a.held e.1 && c.talkBack == a.talkBack
      | none => false) &&
  s.arb.slots.all (fun e =>
    decide (e.2.requested ≠ 0 ∧ e.2.source ≤ 3 ∧ e.2.waitLimit ≤ 60) &&
    (match e.2.maxDuration with
      | none => e.2.priority == .emergency
      | some m => decide (1 ≤ m ∧ m ≤ 600)) &&
    (match e.2.state with
      | .active b =>
        decide (e.2.startSecond.isSome ∧ e.2.held ≠ 0 ∧ e.2.held &&& ~~~e.2.requested = 0 ∧ b < 4 ∧
          s.arb.buses[b]? = some (some { record := e.1, source := e.2.source }) ∧ (b = 0 → e.2.priority = .emergency)) &&
        (members e.2.held).all (fun z => match s.zones.get z with
          | some x => x.claim == some { record := e.1, bus := b, talkBack := e.2.talkBack }
          | none => false)
      | _ => decide (e.2.held = 0))) &&
  (List.range 4).all (fun b => match s.arb.buses[b]? with
    | some (some e) => (match s.arb.slots.get e.record with
      | some a => a.state == .active b && a.source == e.source
      | none => false)
    | _ => true)

theorem claims_of_check {s : State} (h : claimsHold s = true) : ClaimsLaw s := by
  simp only [claimsHold, Bool.and_eq_true, List.all_eq_true] at h
  obtain ⟨⟨hz, ha⟩, hb⟩ := h
  refine ⟨fun z x c hx hc => ?_, fun n a hn => ?_, fun b e he => ?_, fun z x hx hd => ?_⟩
  · have := hz _ (Table.mem_of_get hx)
    simp only [hc] at this
    split at this
    · rename_i a h
      simp only [Bool.and_eq_true, beq_iff_eq] at this
      exact ⟨a, h, this.1.1, this.1.2, this.2⟩
    · cases this
  · obtain ⟨⟨h1, h2⟩, h3⟩ := ha _ (Table.mem_of_get hn)
    obtain ⟨hr, hs, hw⟩ := of_decide_eq_true h1
    refine ⟨hr, hs, hw, fun hm => ?_, fun m hm => ?_, ?_⟩
    · simpa [hm] using h2
    · simpa [hm] using h2
    · split at h3
      · rename_i b hst
        obtain ⟨⟨p1, p2, p3, p4, p5, p6⟩, h4⟩ := (Bool.and_eq_true _ _ ▸ h3 : _ ∧ _).imp_left of_decide_eq_true
        rw [show a.state = .active b from hst]
        refine ⟨p1, p2, p3, p4, p5, p6, forall_mem fun z hz' => ?_⟩
        have := List.all_eq_true.1 h4 z hz'
        split at this
        · rename_i x hx
          exact ⟨x, hx, by simpa using this⟩
        · cases this
      · rename_i hst
        have h3 := of_decide_eq_true h3
        first
          | exact h3
          | split
            · exact absurd ‹_› (hst _)
            · exact h3
  · have hlt : b < 4 := by
      by_contra hlt
      simp [show ¬ b < 4 from hlt] at he
    have := hb b (List.mem_range.2 hlt)
    simp only [he] at this
    split at this
    · rename_i a h
      simp only [Bool.and_eq_true, beq_iff_eq] at this
      exact ⟨a, h, this.1, this.2⟩
    · cases this
  · have := hz _ (Table.mem_of_get hx)
    cases hc : x.claim with
    | some c => rfl
    | none => simp [hc, hd] at this

theorem rich_claims : ClaimsLaw rich := claims_of_check (by decide +kernel)

theorem rich_calls : CallsLaw rich := by
  unfold CallsLaw
  decide

/-- The state in which much is going on is lawful. -/
theorem rich_lawful : rich.Lawful :=
  ⟨rich_time, rich_calendar, rich_lines, rich_modes, rich_evacuation, rich_tables, rich_store, rich_zones, rich_zone_counts, rich_counts, rich_live,
    rich_claims, rich_calls, rich_link⟩

/-- A front command, and an empty queue. -/
theorem witness_StepTakesTheFrontCommand : rich.pending = .silence :: [] ∧ State.reset.pending = [] := by decide

theorem witness_HeldPartKeepsItsWorkingDomain : held.resetHeld = true := by decide

/-- A request at the lowest code, and at the highest. -/
theorem witness_EveryRequestIsAnswered :
    rich.resetHeld = false ∧ requestParts (.lookupSite) = some (1, 11, []) ∧
    requestParts (.attention 1 none) = some (29, 0, [0, 1, 0]) := by
  decide

theorem witness_RefusedRequestsChangeNothing :
    Request .silence ∧ State.reset.resetHeld = false ∧
    ∃ t r, exec .silence State.reset = .next t ∧ t.port.reply = .held r ∧ r.result = .notFound :=
  ⟨by unfold Request; decide, by decide, _, _, rfl, rfl, rfl⟩

/-- A command of each kind that the clauses tell apart, from time invalid and from time valid. -/
theorem witness_OnlyTimeCommandsMoveTime :
    (∃ t, exec .silence State.reset = .next t) ∧
    (∃ t, exec .secondBoundary { State.reset with time := { TimeBase.por with elapsedTicks := 16 } } = .next t) ∧
    (∃ t, exec (.setTime 412 0 none) State.reset = .next t ∧ State.reset.time.valid = false ∧ t.time.valid = true) ∧
    (∃ t, exec .silence rich = .next t ∧ rich.time.valid = true) :=
  ⟨⟨_, rfl⟩, ⟨_, rfl⟩, ⟨_, rfl, rfl, rfl⟩, ⟨_, rfl, rfl⟩⟩

/-- The lowest class and the highest. -/
theorem witness_AStatusStandsUntilCleared :
    let s : State := { State.reset with attn := { status := 0x401, enable := 0 } }
    (∃ t, exec (.attention 1 none) s = .next t) ∧ mem s.attn.status 0 = true ∧ mem s.attn.status 10 = true :=
  ⟨⟨_, rfl⟩, by decide, by decide⟩

theorem witness_ConfigurationIsSoftwares : ∃ t, exec .allClear rich = .next t := ⟨_, rfl⟩

/-- A request with operands at the ends of their ranges. -/
theorem witness_RequestFramesDecode :
    Instr.wf (.setTime 65535 16777215 (some (-32768))) = true ∧ ∃ bytes, encodeRequest (.setTime 65535 16777215 (some (-32768))) = some bytes :=
  ⟨by decide, _, rfl⟩

theorem witness_ReportFramesDecode :
    fitsReport { address := 255, zones := [{ zone := 255, count := 255, level := true }], clear := true, ampFault := false, echo := some 254 }
      = true := by
  decide

/-- The frame of MARK BUILDING 2, its first byte changed. -/
theorem witness_FrameCheckCatchesAByte : checkedFrame ([] ++ 1 :: [3, 26, 0, 2, 132, 97]) ≠ none ∧ (1 : Byte) ≠ 2 := by
  decide +kernel

/-- The lawful state takes a step: the hypotheses of the nine statements about the laws that every step keeps. -/
theorem witness_StepKeepsTheLaws : rich.Lawful ∧ LinesLaw rich ∧ ∃ t, step rich = .next t := ⟨rich_lawful, rich_lines, _, rfl⟩

theorem witness_ResetAssertionClearsTheWorkInFlight :
    rich.resetHeld = false ∧ rich.modes.record = some (evac .drill .sweep) ∧ (evac .drill .sweep).program = some 2 ∧
    rich.modes.programs.get 2 = some { fields := program2, lastResult := none } := by
  decide

theorem witness_ResetReleaseTakesUpTheTime :
    held.resetHeld = true ∧ held.cal.divisions[3]? = some .por ∧ held.modes.record = none ∧ held.modes.panel = .normal := by
  decide

/-- In reset and out of it, a window one tick short of its end, and each state of the key, a press one tick short of a long one. -/
theorem witness_TickCounts :
    let key (k : KeyMonitor) : State := { State.reset with modes := { ModeControl.por with windowTicks := 31, key := k } }
    held.resetHeld = true ∧ (key .spent).resetHeld = false ∧ (key .spent).modes.windowTicks < 32 ∧ (key .spent).modes.key = .spent ∧
    (key .ready).modes.key = .ready ∧ (key (.timing 47)).modes.key = .timing 47 := by
  decide

/-- The ends of the range of day differences. -/
theorem witness_CivilTimeOfAStandardTime :
    (-32768 : Int) ≤ -32768 ∧ (-32768 : Int) ≤ 32767 ∧ (32768 : Day) = 0 + BitVec.ofInt 16 (-32768) ∧ (32767 : Day) = 0 + BitVec.ofInt 16 32767 := by
  decide

/-- The end of a second of day 412 with an offset and shift records, the clock lines in five states. -/
def boundaryAt (second : Nat) (offset : Int) (shifts : List ShiftRecord) : State :=
  let s := withLine (withLine (withLine (clockAt 412 second) 1 (impulse .synced 119 65 2)) 2 (impulse .holding 120 65 2)) 3
    { impulse .advancing 119 65 2 with owed := .waiting }
  let s := withLine s 4 { impulse .following 0 65 2 with kind := .coded }
  { s with time := { s.time with elapsedTicks := 16, offset := offset, shifts := shifts } }

/-- A shift record of day 412 at 02:00. -/
def shiftAt2 (shift : Int) : ShiftRecord := { day := 412, minute := 120, shift := shift }

/-- One tick before the end of a second and at it; time invalid; 02:00:00 with no shift record, and with one that moves the offset, one that the
limit makes idle, and one that the limit clamps; a second of no minute; midnight; the state held; and lines in each state that a minute
finds. -/
theorem witness_SecondBoundaryEndsTheSecond :
    let at_ (n : Nat) : State := { State.reset with time := { TimeBase.por with elapsedTicks := n } }
    let s := boundaryAt 7199 0 []
    let m (offset shift : Int) : State := boundaryAt (7199 - offset * 60).toNat offset [shiftAt2 shift]
    let civil (offset : Int) : CivilTime := civilOf 412 (7200 - offset * 60).toNat offset
    let shifted (offset shift : Int) : Int := max (-720) (min 720 (offset + shift))
    (at_ 15).time.elapsedTicks < (at_ 15).time.secondLength ∧ (at_ 16).time.secondLength ≤ (at_ 16).time.elapsedTicks ∧
    (at_ 16).time.valid = false ∧ (at_ 16).time.shifts = [] ∧ s.time.valid = true ∧ s.time.secondLength ≤ s.time.elapsedTicks ∧
    civil 0 = { day := 412, second := 7200 } ∧ civilOf 412 7201 0 = { day := 412, second := 7201 } ∧
    civilOf 413 0 0 = { day := 413, second := 0 } ∧ s.resetHeld = false ∧ held.resetHeld = true ∧
    shiftAt2 60 ∈ (m 0 60).time.shifts ∧ (shiftAt2 60).day = 412 ∧ (shiftAt2 60).minute * 60 = 7200 ∧ TimeLaw (m 0 60) ∧ shifted 0 60 ≠ 0 ∧
    civil (-700) = { day := 412, second := 7200 } ∧ TimeLaw (m (-700) (-60)) ∧ (-700 : Int) + -60 < -720 ∧ shifted (-720) (-60) = -720 ∧
    civil (-720) = { day := 412, second := 7200 } ∧
    (s.lines[0]?).map (·.state) = some .unset ∧ (s.lines[1]?).map (·.state) = some .synced ∧ (s.lines[2]?).map (·.state) = some .holding ∧
    (s.lines[3]?).map (·.state) = some .advancing ∧ (s.lines[4]?).map (·.state) = some .following ∧
    ((s.rolloverCalendar 413).cal.divisions[3]?).isSome = true := by
  and_intros <;> decide +kernel

/-- 08:49:59 of a day whose plan is plan 4, with entry 11 due at 08:50:00 on zone 18. -/
def beforeBell : State :=
  let s := withZone (clockAt 702 31799) 18 room18
  { s with
    time := { s.time with elapsedTicks := 16 }
    dispatch := s.dispatch.set 1 { plan := some 4, cycle := some 0 }
    store := { s.store with plans := [(4, plan4 1)], entries := [entry11 (zones [18])] }
    cal := { s.cal with divisions := s.cal.divisions.set 1 { Division.por with mark := .at 31799 } } }

theorem witness_BoundaryRingsADueBell :
    let e := entry11 (zones [18])
    beforeBell.resetHeld = false ∧ beforeBell.time.valid = true ∧ beforeBell.time.secondLength ≤ beforeBell.time.elapsedTicks ∧
    beforeBell.arb.slots = [] ∧ beforeBell.arb.arrival = [] ∧ beforeBell.time.shifts = [] ∧
    (∀ z x, beforeBell.zones.get z = some x → x.claim = none ∧ x.bell.isDeferred = false) ∧
    civilOf 702 31800 0 = { day := 702, second := 31800 } ∧ beforeBell.dispatch[1]? = some { plan := some 4, cycle := some 0 } ∧
    e ∈ beforeBell.store.entries ∧ e.plan = 4 ∧ e.action = .bell 2 4 true 60 ∧ e.minute * 60 + e.second = 31800 ∧
    (markOf beforeBell 1).before 31800 = true ∧ mem e.mask 0 = true ∧ e.validFrom = none ∧ e.validUntil = none ∧ mem e.zones 18 = true ∧
    beforeBell.zones.get 18 = some room18 ∧ room18.bell = .idle ∧
    thresholdReached room18.config.bellThreshold beforeBell.modes.effective = false ∧
    (∀ v copy, beforeBell.dispatch[v]? = some copy → ∀ x ∈ beforeBell.store.entries, copy.plan = some x.plan → x = e ∧ v = 1) := by
  refine ⟨by decide, by decide, by decide, by decide, by decide, by decide, Table.forall_get (by decide), by decide +kernel, ?_⟩
  and_intros
  all_goals first
    | decide
    | skip
  intro v copy h x hx hp
  have hv : v < 4 := by
    by_contra hv
    simp [show ¬ v < 4 from hv] at h
  have all : ∀ v < 4, ∀ copy, beforeBell.dispatch[v]? = some copy → copy.plan ≠ none → v = 1 := by
    intro v hv copy h
    interval_cases v <;> simp_all [show beforeBell.dispatch = #v[{ plan := none, cycle := none }, { plan := some 4, cycle := some 0 },
      { plan := none, cycle := none }, { plan := none, cycle := none }] from rfl] <;> subst h <;> decide
  exact ⟨by simpa [show beforeBell.store.entries = [entry11 (zones [18])] from rfl] using hx, all v hv copy h (by rw [hp]; simp)⟩

/-- A pulse age of 7, 8, 47 and 48; a pending label, and none with a last label at the end of a day; errors of 32, 33, −32 and −33 ticks, and
a day 32 768 ahead. -/
theorem witness_ReferenceDiscipline :
    let s (age : Nat) (r : RefState) (pending last : Option Label) (tick : Nat) : State := { clockAt 412 28800 with
      time := { (clockAt 412 28800).time with
                pulseAge := age, refState := r, pendingLabel := pending, lastLabel := last, elapsedTicks := tick } }
    let error (day : Day) (second tick : Nat) : Int :=
      ((if 32768 ≤ (day - 412).toNat then ((day - 412).toNat : Int) - 65536 else ((day - 412).toNat : Int)) * 86400 + second - 28800) * 16 - tick
    (s 48 .locked none none 0).time.pulseAge = 48 ∧ (s 48 .locked none none 0).time.refState ≠ .absent ∧
    (∃ t, exec .referenceLoss (s 48 .locked none none 0) = .next t) ∧ (s 47 .locked none none 0).time.pulseAge < 48 ∧
    (s 7 .locked none none 0).time.pulseAge < 8 ∧ (s 48 .absent none none 0).time.pendingLabel = none ∧
    8 ≤ (s 8 .slewing none (some { day := 412, second := 28802 }) 0).time.pulseAge ∧
    (s 8 .slewing none (some { day := 411, second := 86399 }) 0).time.refState ≠ .absent ∧
    error 412 28802 0 = 32 ∧ error 412 28799 16 = -32 ∧ error 412 28803 15 = 33 ∧ error 412 28798 1 = -33 ∧
    error (412 + 32768) 28800 0 = -32768 * 1382400 ∧ (s 8 .absent (some { day := 412, second := 28800 }) none 0).time.valid = true ∧
    TimeLaw (s 8 .absent (some { day := 412, second := 28803 }) none 15) ∧ State.reset.time.valid = false := by
  refine ⟨rfl, by decide, ⟨_, rfl⟩, ?_⟩
  and_intros <;> decide

/-- The state of 4.8 before entry 11, its civil time at another second of the day. -/
def lateAt (n : Nat) : State := { beforeBell with time := (clockAt 702 n).time }

/-- The same at 08:51:00 of the next day, division 1 with a mark and the same plan on every day of its map. -/
def crossing (m : Mark) (p : Option Nat) : State :=
  { beforeBell with
    time := (clockAt 703 31860).time
    cal := { beforeBell.cal with divisions := beforeBell.cal.divisions.set 1 { Division.por with mark := m, map := Vector.replicate 7 p } } }

/-- Where entry 11 is all there is and division 1 alone has a plan, no other entry is reached. -/
theorem reached_only {s : State} {after : Nat → Mark} {n v : Nat} {d : Day} {e : Entry} (he : s.store.entries = [entry11 (zones [18])])
    (hd : ∀ k < 4, k ≠ 1 → (s.dispatch[k]?).bind (·.plan) = none) (h : Reached s after n d v e) : v = 1 ∧ e = entry11 (zones [18]) := by
  obtain ⟨copy, hc, hp, hm, _⟩ := h
  refine ⟨?_, by simpa [he] using hm⟩
  by_contra hv
  have := hd v (Vector.getElem?_eq_some_iff.1 hc).1 hv
  rw [hc, Option.bind_some, hp] at this
  cases this

/-- Entry 11 is the one entry that is reached for zone 18. -/
theorem lone11 {s : State} {after : Nat → Mark} {n : Nat} {d : Day} (he : s.store.entries = [entry11 (zones [18])])
    (hd : ∀ k < 4, k ≠ 1 → (s.dispatch[k]?).bind (·.plan) = none) (h : Reached s after n d 1 (entry11 (zones [18]))) :
    LoneFor (Reached s after n d) 18 1 (entry11 (zones [18])) :=
  ⟨h, by decide, fun _ _ h' _ => reached_only he hd h'⟩

theorem reached_late (n : Nat) (h : 31800 ≤ n) : Reached (lateAt n) (markOf (lateAt n)) n 702 1 (entry11 (zones [18])) :=
  ⟨_, rfl, rfl, List.mem_cons_self, rfl, h, fun c hc => by obtain rfl : 0 = c := Option.some.inj hc; decide, nofun, nofun⟩

/-- What a forward step from day 702 into day 703 leaves of the copies and the store, whichever order is taken. -/
theorem crossed (m : Mark) (p : Option Nat) (h : (m, p) = (.at 31799, none) ∨ (m, p) = (.at 86399, some 4)) :
    ((crossing m p).stepEvent { day := 702, second := 31799 }).store.entries = [entry11 (zones [18])] ∧
    ((crossing m p).stepEvent { day := 702, second := 31799 }).dispatch =
      (#v[{ plan := none, cycle := none }, { plan := p, cycle := p.map (fun _ => 0) }, { plan := none, cycle := none }, { plan := none, cycle := none }]) ∧
    ((crossing m p).stepEvent { day := 702, second := 31799 }).store.plans.get 4 = some (plan4 1) := by
  unfold State.stepEvent State.forwardAcross
  dsimp only
  obtain h | h := h <;> cases h <;> generalize Config.oldDayFirst _ = b <;> cases b <;> decide +kernel

/-- A second and an offset at the ends of their ranges and one beyond; a lawful state with time valid, and one with time invalid; a backward step
within a day and into another. -/
theorem witness_SetTimeSteps :
    State.reset.resetHeld = false ∧ State.reset.time.valid = false ∧ State.reset.time.shifts = [] ∧ rich.time.valid = true ∧ TimeLaw rich ∧
    min 86399 86399 = 86399 ∧ (86399 < 86400) ∧ ¬ ((720 : Int) < 720) ∧ (720 : Int) < 721 ∧ ((-721 : Int) < -720) ∧
    civilAmount { day := 702, second := 31861 } (lateAt 31860).time.civil < 0 ∧ (lateAt 31860).time.civil.day = 702 ∧
    civilAmount { day := 703, second := 0 } (lateAt 31860).time.civil < 0 ∧ (703 : Day) ≠ (lateAt 31860).time.civil.day := by
  refine ⟨by decide, by decide, rfl, by decide, rich_time, ?_⟩
  decide +kernel

/-- A forward step of a minute past entry 11, alone in reaching zone 18 and within the late limit, and one second beyond it; a zone that no entry
names. -/
theorem witness_SetTimeSteps_within :
    let s := lateAt 31860
    let late := lateAt 31921
    let old : CivilTime := { day := 702, second := 31799 }
    let e := entry11 (zones [18])
    let reached := Reached late (markOf late) 31921 702
    s.resetHeld = false ∧ 0 ≤ civilAmount old s.time.civil ∧ s.time.civil = { day := 702, second := 31860 } ∧
    LoneFor (Reached s (markOf s) 31860 702) 18 1 e ∧ s.zones.get 18 = some room18 ∧ s.store.plans.get 4 = some (plan4 1) ∧ readyFor s e room18 ∧
    (∀ v e', Reached s (markOf s) 31860 702 v e' → mem e'.zones 19 = false) ∧
    (∀ v e', ¬ Reached s (markOf s) 31799 702 v e') ∧
    late.time.civil = { day := 702, second := 31921 } ∧ reached 1 e ∧ (∀ w q, reached w q → w = 1 ∧ q = e) ∧ late.store.entries.Nodup ∧
    e.action = .bell 2 4 true 60 ∧ e.zones = single 64 18 ∧ (plan4 1).lateLimit * 60 < 31921 - e.due ∧ late.cal.divisions[1]?.isSome = true := by
  have plans : ∀ k < 4, k ≠ 1 → (beforeBell.dispatch[k]?).bind (·.plan) = none := by decide
  have only {n m : Nat} {v : Nat} {e : Entry} (h : Reached (lateAt n) (markOf (lateAt n)) m 702 v e) : v = 1 ∧ e = entry11 (zones [18]) :=
    reached_only rfl plans h
  refine ⟨by decide, by decide +kernel, by decide +kernel, lone11 rfl plans (reached_late 31860 (by decide)), rfl, rfl, fun _ _ _ _ _ => by decide,
    fun v e h => ?_, fun v e h => ?_, by decide +kernel, reached_late 31921 (by decide), fun _ _ => only, List.nodup_singleton _, rfl,
    by decide +kernel, by decide, by decide⟩
  · rw [(only h).2]
    decide
  · obtain ⟨rfl, rfl⟩ := only h
    obtain ⟨_, _, _, _, _, h, _⟩ := h
    exact absurd h (by decide)

/-- Forward steps across a midnight: entry 11 reached in the old day alone, and in the new day alone; a zone that no entry names. -/
theorem witness_SetTimeSteps_across :
    let old : CivilTime := { day := 702, second := 31799 }
    let e := entry11 (zones [18])
    let s := crossing (.at 31799) none
    let t := crossing (.at 86399) (some 4)
    let begun (s : State) := Reached (s.stepEvent old) (fun _ => .start) 31860 703
    s.resetHeld = false ∧ 0 ≤ civilAmount old s.time.civil ∧ s.time.civil = { day := 703, second := 31860 } ∧
    LoneFor (Reached s (markOf s) 86399 702) 18 1 e ∧ (∀ v q, ¬ begun s v q) ∧ e.validUntil = none ∧ s.zones.get 18 = some room18 ∧
    s.store.plans.get 4 = some (plan4 1) ∧ readyFor s e room18 ∧ mem e.zones 19 = false ∧
    t.time.civil = { day := 703, second := 31860 } ∧ LoneFor (begun t) 18 1 e ∧ (∀ v q, ¬ Reached t (markOf t) 86399 702 v q) ∧
    t.zones.get 18 = some room18 ∧ (t.stepEvent old).store.plans.get 4 = some (plan4 1) ∧ readyFor t e room18 := by
  have plans : ∀ k < 4, k ≠ 1 → (beforeBell.dispatch[k]?).bind (·.plan) = none := by decide
  refine ⟨by decide, by decide +kernel, by decide +kernel,
    lone11 rfl plans ⟨_, rfl, rfl, List.mem_cons_self, rfl, by decide, fun c hc => by obtain rfl : 0 = c := Option.some.inj hc; decide, nofun, nofun⟩,
    fun v q h => ?_, rfl, rfl, rfl, fun _ _ _ _ _ => by decide, by decide, by decide +kernel, ?_, fun v q h => ?_, rfl,
    (crossed (.at 86399) (some 4) (.inr rfl)).2.2, fun _ _ _ _ _ => by decide⟩
  · obtain ⟨entries, copies, _⟩ := crossed (.at 31799) none (.inl rfl)
    obtain ⟨copy, hc, hp, _⟩ := h
    have all : ∀ k < 4, ((#v[⟨none, none⟩, ⟨none, none⟩, ⟨none, none⟩, ⟨none, none⟩] : Vector DispatchCopy 4)[k]?).bind (·.plan) = none := by decide
    have := all v (Vector.getElem?_eq_some_iff.1 hc).1
    rw [copies] at hc
    simp_all
  · obtain ⟨entries, copies, _⟩ := crossed (.at 86399) (some 4) (.inr rfl)
    refine lone11 entries (by rw [copies]; decide)
      ⟨⟨some 4, some 0⟩, by rw [copies]; rfl, rfl, by rw [entries]; exact List.mem_cons_self, rfl, by decide, ?_, nofun, nofun⟩
    intro c hc
    obtain rfl : 0 = c := Option.some.inj hc
    decide
  · obtain ⟨rfl, rfl⟩ := reached_only rfl plans h
    obtain ⟨_, _, _, _, h, _⟩ := h
    exact absurd h (by decide)

theorem witness_TimeReferenceWaitsForAPulse :
    let s : State := { clockAt 412 28799 with time := { (clockAt 412 28799).time with elapsedTicks := 11, pulseAge := 8 } }
    s.resetHeld = false ∧ 8 ≤ s.time.pulseAge ∧
    ∃ t u v, exec (.timeReference 412 28800) s = .next t ∧ exec .refPulse t = .next u ∧ exec (.setTime 412 0 none) t = .next v :=
  ⟨by decide, by decide, _, _, _, rfl, rfl, rfl⟩

/-- Four records held; a day before today, today at a passed minute and at the next one, a held day and another. -/
theorem witness_ShiftTableRequests :
    let r (d : Day) : ShiftRecord := { day := d, minute := 120, shift := 60 }
    let s (l : List ShiftRecord) : State := { clockAt 500 7200 with time := { (clockAt 500 7200).time with shifts := l } }
    (s []).resetHeld = false ∧ State.reset.time.valid = false ∧ (s []).time.valid = true ∧ isBefore 499 (s []).today = true ∧
    500 = (s []).today ∧ min 1439 120 * 60 ≤ (s []).time.civil.second ∧ (s []).time.civil.second < min 1439 121 * 60 ∧
    isBefore 510 (s []).today = false ∧ (∀ x ∈ (s [r 510, r 511, r 512, r 513]).time.shifts, x.day ≠ 514) ∧
    4 ≤ (s [r 510, r 511, r 512, r 513]).time.shifts.length ∧ (s [r 510, r 511, r 512]).time.shifts.length < 4 ∧
    (∃ x ∈ (s [r 510]).time.shifts, x.day = 510) := by
  decide

/-- The last number in range of each table and the first out of it, held and not held. -/
theorem witness_LookupsAnswer :
    rich.resetHeld = false ∧ ¬ 15 < 15 ∧ 15 < 16 ∧ ¬ 63 < 63 ∧ 63 < 64 ∧ ¬ 7 < 7 ∧ 7 < 8 ∧ (rich.store.plans.get 4).isSome = true ∧
    rich.store.plans.get 15 = none ∧ (entryAt rich 4 11).isSome = true ∧ entryAt rich 4 12 = none ∧ (rich.zones.get 18).isSome = true ∧
    rich.zones.get 63 = none ∧ (rich.link.buildings[7]?).isSome = true ∧ rich.link.buildings[8]? = none ∧
    (rich.lines[11]?).isSome = true ∧ rich.lines[12]? = none ∧ (rich.modes.programs.get 2).isSome = true ∧
    (rich.cal.divisions[3]?).isSome = true ∧ rich.cal.divisions[4]? = none ∧ (rich.arb.slots.get 5).isSome = true ∧
    (callOf rich 18).isSome = true ∧ callOf rich 63 = none := by
  decide

/-- A lawful state; a record that follows from the start, one that follows a given key, and a key that nothing follows. -/
theorem witness_NextsAnswer :
    rich.resetHeld = false ∧ rich.Lawful ∧
    FollowsIn rich.store.patterns 0 .pattern (fun _ => patternView) .fromStart (.pattern 0) (patternView { steps := [{ on := 32, off := 0 }], refs := 0 }) ∧
    FollowsIn rich.store.patterns 6 .pattern (fun _ => patternView) .given (.pattern 9) (patternView (pattern1 1)) ∧
    (∀ k v, ¬ FollowsIn rich.store.patterns 9 .pattern (fun _ => patternView) .given k v) ∧
    entryAt rich 4 11 = some (entry11 (zones [18])) ∧ (∀ q ∈ rich.store.entries, 4 ≤ q.plan → q = entry11 (zones [18])) ∧
    (∀ q ∈ rich.store.entries, q.plan < 5) ∧ ¬ 15 < 15 ∧ 15 < 16 ∧ 63 < 64 ∧ 7 < 8 ∧ 3 < 4 ∧ 11 < 12 := by
  refine ⟨by decide, rich_lawful, ⟨_, List.mem_of_getElem? (i := 0) rfl, rfl, rfl, by decide, by decide⟩,
    ⟨_, List.mem_of_getElem? (i := 4) rfl, rfl, rfl, by decide, by decide⟩, ?_, by decide, by decide, by decide, by decide⟩
  rintro k v ⟨e, he, _, _, ha, _⟩
  have all : ∀ e ∈ rich.store.patterns, ¬ 9 < e.1 := by decide
  exact all e he (ha rfl)

/-- Days resolved by the map and by each override, to an owned plan, to one owned by another division, to one not held and to none; a day
counted already and one not; a day of school and one of none. -/
theorem witness_DaysAreResolvedAndCounted :
    let d : Division := { Division.por with lastCycle := some 1, previousCycle := some 0, lastCounted := some 697 }
    let s (o : OverrideKind) : State := abWeek 700 d [{ division := 1, day := 700, kind := o }]
    overrideAt (abWeek 699 d []) 1 700 = none ∧ (d.map[(700 + 0) % 7]?).getD none = none ∧
    (overrideAt (s (.planSet 4 1)) 1 700).map (·.kind) = some (.planSet 4 1) ∧ (overrideAt (s .noSchool) 1 700).map (·.kind) = some .noSchool ∧
    (s (.plan 4)).store.plans.get 4 = some (plan4 0) ∧ (plan4 0).division = 1 ∧ (plan4 0).division ≠ 0 ∧
    (s (.plan 9)).store.plans.get 9 = none ∧ (s .noSchool).cal.today = some 700 ∧
    (resolvePlan (abWeek 699 d []) 1 700).schoolDay = true ∧ (resolvePlan (s .noSchool) 1 700).schoolDay = false ∧
    (abWeek 699 d []).cal.divisions[1].lastCounted ≠ some 700 ∧ (abWeek 697 d []).cal.divisions[1].lastCounted = some 697 ∧
    cycleSetAt (s (.planSet 4 1)) 1 700 = some 1 ∧ cycleSetAt (s (.plan 4)) 1 700 = none ∧ (s .noSchool).resetHeld = false ∧
    (resolvePlan (s (.plan 9)) 1 700).unresolved = true ∧ held.resetHeld = true := by
  decide +kernel

/-- Time invalid; a division of 4; a day 32 767 ahead and 32 768; plans 15 and 16; cycle days 7 and 8; 127 overrides and 128; a held key and
another; today and another day. -/
theorem witness_OverrideTableRequests :
    let o (d : Day) : Override := { division := 1, day := d, kind := .noSchool }
    let s (n : Nat) : State := abWeek 700 .por ((List.range n).map (fun k => o (BitVec.ofNat 16 (700 + k))))
    (s 0).resetHeld = false ∧ State.reset.time.valid = false ∧ (s 0).time.valid = true ∧ 3 < 4 ∧ ((700 + 32767 : Day) - (s 0).today).toNat < 32768 ∧
    32768 ≤ ((700 + 32768 : Day) - (s 0).today).toNat ∧ 15 < 16 ∧ 7 < 8 ∧ (s 0).cal.divisions[3]? = some .por ∧
    (s 127).cal.overrides.length < 128 ∧ 128 ≤ (s 128).cal.overrides.length ∧ overrideAt (s 128) 0 700 = none ∧
    overrideAt (s 128) 1 827 ≠ none ∧ (s 128).cal.today = some 700 ∧ (s 128).cal.today ≠ some 701 := by
  decide +kernel

/-- Divisions 3 and 4, plans 15 and 16, program numbers 7 and 8; a map entry for today that changes; a changed epoch weekday; time valid and
not; a shorter cycle that moves today's cycle day, and one that leaves it. -/
theorem witness_DivisionAndSiteAmendments :
    let s := abWeek 700 .por []
    let last : Division := { Division.por with map := divisionFields.map, cycleLength := 2, todayCycle := some 1 }
    let f (p : Nat) : DivisionFields := { divisionFields with map := Vector.replicate 7 (some p) }
    s.resetHeld = false ∧ s.cal.divisions[3]? = some .por ∧ 3 < 4 ∧ (∀ n, some n ∈ (f 15).map.toList → n ≤ 15) ∧
    (∃ n, some n ∈ (f 16).map.toList ∧ 15 < n) ∧ State.reset.time.valid = false ∧ s.time.valid = true ∧ s.cal.today = some 700 ∧
    (f 15).map[(700 + 0) % 7]? ≠ (Division.por).map[(700 + 0) % 7]? ∧ { siteFields with alarmProgram := 7 }.alarmProgram ≤ 7 ∧
    7 < { siteFields with alarmProgram := 8 }.alarmProgram ∧ min 6 { siteFields with epochWeekday := 6 }.epochWeekday ≠ s.cal.site.epochWeekday ∧
    (abWeek 700 { Division.por with todayCycle := some 1 } []).cal.divisions[1]? = some last ∧ divisionFields.map = last.map ∧
    max 1 (min 8 { divisionFields with cycleLength := 1 }.cycleLength) = 1 ∧ last.todayCycle.map (min (1 - 1)) ≠ last.todayCycle ∧
    max 1 (min 8 divisionFields.cycleLength) = last.cycleLength := by
  refine ⟨by decide, by decide, by decide, ?_, ⟨16, by decide, by decide⟩, ?_⟩
  rotate_left
  · decide
  intro n h
  have all : ∀ x ∈ (Vector.replicate 7 (some 15)).toList, x = some 15 := by decide
  have := all _ h
  simp_all

/-- Plans 15 and 16, divisions 3 and 4; a plan with an entry and one without; the plan of today, a plan that today's map names, and one that
bears on no division. -/
theorem witness_PlanTableRequests :
    let s := abWeek 700 { Division.por with todayPlan := some 4 } []
    s.resetHeld = false ∧ 15 < 16 ∧ 3 < 4 ∧ s.store.plans.get 15 = none ∧ s.store.plans.get 4 = some (plan4 0) ∧ (plan4 0).entryCount = 0 ∧
    (planning [entry11 0]).store.plans.get 4 = some (plan4 1) ∧ 0 < (plan4 1).entryCount ∧ (plan4 1).division ≠ 3 ∧
    s.cal.today = some 700 ∧ s.time.valid = true ∧ planNamedFor s 1 700 = some 4 ∧
    (abWeek 700 .por []).cal.divisions[1].todayPlan ≠ some 4 ∧ planNamedFor s 0 700 ≠ some 4 ∧ todayPlanOf s 1 = some 4 ∧
    todayPlanOf s (plan4 0).division ≠ some 5 ∧ State.reset.time.valid = false ∧ planNamedFor s 1 700 ≠ some 5 := by
  decide

/-- Plans 15 and 16, tags 255 and 256, actions 2 and 3, patterns 15 and 16; a plan and a pattern not held; no zone, a zone of another division
and the right ones; a day passed and an interval too long; a conflict, 128 entries of the plan, and neither. -/
theorem witness_EntryTableRequests :
    let s := planning [entry11 (zones [18])]
    let e : Entry := { entry11 (zones [18, 26]) with action := .bell 3 4 true 60 }
    s.resetHeld = false ∧ 15 < 16 ∧ 255 < 256 ∧ 2 < 3 ∧ s.store.plans.get 15 = none ∧ s.store.patterns.get 15 = none ∧
    s.store.plans.get 4 = some (plan4 1) ∧ s.store.patterns.get 3 ≠ none ∧ mem (zones [28]) 28 = true ∧
    (∀ x, s.zones.get 28 = some x → x.config.division ≠ 1) ∧ zones [18, 26] ≠ 0 ∧
    (∀ z, mem (zones [18, 26]) z = true → ∃ x, s.zones.get z = some x ∧ x.config.division = 1) ∧ s.time.valid = true ∧
    isBefore 701 s.today = true ∧ isBefore 702 s.today = false ∧ 32768 ≤ ((702 + 32768 : Day) - 702).toNat ∧
    ((702 + 32767 : Day) - 702).toNat < 32768 ∧
    (∃ x ∈ s.store.entries, x.plan = 4 ∧ x.tag ≠ 12 ∧ x.due = min 2047 530 * 60 + min 59 0 ∧ x.zones &&& zones [18, 26] ≠ 0) ∧
    (¬ ∃ x ∈ s.store.entries, x.plan = 4 ∧ x.tag ≠ 11 ∧ x.due = min 2047 530 * 60 + min 59 0 ∧ x.zones &&& zones [18, 26] ≠ 0) ∧
    entryAt s 4 12 = none ∧ entryAt s 4 11 = some (entry11 (zones [18])) ∧
    128 ≤ ((planning (List.replicate 128 (entry11 0))).store.entries.filter (fun e => e.plan == 4)).length ∧
    e.minute = min 2047 entryFields.minute ∧ e.second = min 59 entryFields.second ∧ e.mask = entryFields.mask ∧ e.zones = entryFields.zones ∧
    e.validFrom = entryFields.validFrom ∧ e.validUntil = entryFields.validUntil ∧
    e.action = .bell entryFields.pattern (max 1 (min 30 entryFields.duration)) entryFields.holdable (min 120 entryFields.deferLimit) ∧
    entryFields.action = 0 := by
  refine ⟨by decide, by decide, by decide, by decide, by decide, by decide, by decide, by decide, by decide,
    fun x h => ?_, by decide, forall_mem ?_, by decide +kernel⟩
  · have all := Table.forall_get (t := (planning [entry11 (zones [18])]).zones) (P := fun z x => z = 28 → x.config.division ≠ 1) (by decide)
    exact all 28 x h rfl
  · intro z h
    have : z = 18 ∨ z = 26 := by
      have all : ∀ z ∈ members (zones [18, 26]), z = 18 ∨ z = 26 := by decide
      exact all z h
    obtain rfl | rfl := this
    · exact ⟨_, rfl, rfl⟩
    · exact ⟨_, rfl, rfl⟩

/-- Numbers 15 and 16; no step, six steps and seven; pattern 0; a pattern not held, one in use and one not. -/
theorem witness_PatternTableRequests :
    let x : PatternStep := { on := 33, off := 0 }
    let s := withPatterns State.reset
    s.resetHeld = false ∧ ¬ 15 < 15 ∧ 15 < 16 ∧ List.replicate 6 x ≠ [] ∧ (List.replicate 6 x).length ≤ 6 ∧ 6 < (List.replicate 7 x).length ∧
    (List.replicate 6 x).map (fun x => { on := max 1 (min 32 x.on), off := min 32 x.off : PatternStep }) = List.replicate 6 { on := 32, off := 0 } ∧
    s.store.patterns.get 1 = none ∧ s.store.patterns.get 2 = some (pattern1 1) ∧ 0 < (pattern1 1).refs ∧
    s.store.patterns.get 3 = some (pattern1 0) ∧ (pattern1 0).refs = 0 ∧ (s.link.buildings[0]?).map (·.present) = some true ∧
    (s.link.buildings[1]?).map (·.present) = some false := by
  decide

/-- Zones 63 and 64, buildings 7 and 8, divisions 3 and 4, kinds 3 and 4, patterns 15 and 16; each bound of a limit; a zone not held, a zone free
of ties and one that is tied; 15 zones of a building and 16; a building that is Lost; a move to another building; a new call switch; a deferral that the amendment forces. -/
theorem witness_ZoneTableRequests :
    let s := withZone (withPatterns State.reset) 18 room18
    let lost := withBuilding s 7 { online with link := .lost }
    let count (n : Nat) : State := { s with zoneCounts := s.zoneCounts.set 3 n }
    s.resetHeld = false ∧ 63 < 64 ∧ 7 < 8 ∧ 3 < 4 ∧ 15 < 16 ∧ zoneKindOf 3 = some .assembly ∧ zoneKindOf 4 = none ∧
    s.store.patterns.get 7 = none ∧ s.store.patterns.get 6 ≠ none ∧ s.zones.get 63 = none ∧ s.zones.get 18 = some room18 ∧
    room18.claim.isSome = false ∧ requestedByLive s 18 = false ∧ namedByCall s 18 = false ∧ inRecordZones s 18 = false ∧
    requestedByLive rich 18 = true ∧ namedByCall rich 18 = true ∧ inRecordZones rich 18 = true ∧ room18.config.building ≠ 3 ∧
    16 ≤ ((count 16).zoneCounts[3]?).getD 0 ∧ ¬ 16 ≤ ((count 15).zoneCounts[3]?).getD 0 ∧ linkStateOf lost 7 = .lost ∧ linkStateOf s 3 ≠ .lost ∧
    (∀ t ∈ [Threshold.level 0, .level 1, .level 4, .level 5], ∃ n, t = .level n ∧ (n < 1 ∨ 4 < n ∨ (1 ≤ n ∧ n ≤ 4))) ∧
    { zoneFields with bellThreshold := .never }.bellThreshold = .never ∧ ({ zoneFields with alertDuration := 0 }.alertDuration < 1) ∧
    10 < { zoneFields with alertDuration := 11 }.alertDuration ∧ (zoneConfigOf { zoneFields with upper := some 0 } .room none).upper = 1 ∧
    (zoneConfigOf { zoneFields with upper := some 1 } .room none).upper < 2 ∧ 7 < 8 ∧
    (zoneConfigOf { zoneFields with upper := some 2 } .room none).upper = 2 ∧
    (zoneConfigOf zoneFields .room none).callSwitch = true ∧ { room with callSwitch := false }.callSwitch = false ∧
    (let deferred : Zone := { room18 with config := { room with bellThreshold := .never }, bell := .deferred 2 4 0 60 }
    let hold : State := { s with modes := { s.modes with effective := .hold } }
    deferred.bell.isDeferred = true ∧ bellForcedIn hold deferred = false ∧
      thresholdReached (zoneConfigOf zoneFields .room (some deferred.config)).bellThreshold hold.modes.effective = true) := by
  refine ⟨by decide, by decide, by decide, by decide, by decide, ?_⟩
  and_intros <;> first
    | decide
    | simp

/-- Program numbers 7 and 8, patterns 15 and 16; a zone not held; a pattern not held; a program that the record names and one that it does not;
each interval at a bound. -/
theorem witness_ProgramTableRequests :
    let s := evacuating 5000 .normal (some (evac .drill .sweep))
    let f : ProgramFields := { program2 with sounding := 601, target := 3600, deadline := 60, allClearDuration := 0 }
    s.resetHeld = false ∧ 7 < 8 ∧ 15 < 16 ∧ mem (zones [63]) 63 = true ∧ s.zones.get 63 = none ∧
    (∀ z, mem program2.zones z = true → s.zones.get z ≠ none) ∧ s.store.patterns.get 15 = none ∧ s.store.patterns.get 9 ≠ none ∧
    s.store.patterns.get 4 ≠ none ∧ (∃ r, s.modes.record = some r ∧ r.program = some 2) ∧ (¬ ∃ r, s.modes.record = some r ∧ r.program = some 7) ∧
    s.modes.programs.get 7 = none ∧ s.modes.programs.get 2 = some { fields := program2, lastResult := none } ∧
    (max 10 (min 600 f.sounding), max 60 (min 3600 f.target), max (max 60 (min 3600 f.target)) (max 60 (min 3600 f.deadline)),
      max 1 (min 30 f.allClearDuration)) = (600, 3600, 3600, 1) := by
  refine ⟨by decide, by decide, by decide, by decide, by decide, forall_mem (by decide), by decide, by decide, by decide, ⟨_, rfl, rfl⟩,
    fun ⟨r, hr, hp⟩ => ?_, by decide⟩
  obtain rfl : evac .drill .sweep = r := Option.some.inj hr
  revert hp; decide

/-- Forced and not forced at the threshold; a sounding of the same length and one shorter; a deferral's lateness one second below the limit and
at it; a deadline of 60 seconds before and at its end; a sounding at its last tick and after it. -/
theorem witness_BellsOnAZone :
    let s (m : Mode) (x : Zone) : State := withZone { clockAt 702 31860 with
      modes := { ModeControl.por with effective := m }, time := { (clockAt 702 31860).time with counter := 60 } } 18 x
    let claimed : Zone := { room18 with claim := some { record := 5, bus := 1, talkBack := false } }
    (s .normal room18).resetHeld = false ∧ (s .normal room18).zones.get 18 = some room18 ∧ room18.config.division = 1 ∧
    (s .normal room18).cal.divisions[1]? = some .por ∧ thresholdReached room18.config.bellThreshold (s .hold room18).modes.effective = true ∧
    thresholdReached room18.config.bellThreshold (s .quiet room18).modes.effective = false ∧ 16 * 4 ≤ 64 ∧ 63 < 16 * 4 ∧
    room18.bell.isSounding = false ∧ claimed.claim.isSome = true ∧ 59 < 60 ∧ ¬ 60 < 60 ∧ room18.claim.isSome = false ∧
    (s .normal { claimed with bell := .deferred 2 4 0 60 }).zones.get 18 = some { claimed with bell := .deferred 2 4 0 60 } ∧
    60 ≤ ((s .normal claimed).time.counter - 0).toNat ∧ ((s .normal claimed).time.counter - 1).toNat < 60 ∧
    (s .normal { room18 with bell := .sounding 2 4 0 5 }).zones.get 18 = some { room18 with bell := .sounding 2 4 0 5 } ∧
    (s .normal { room18 with bell := .sounding 2 4 1 5 }).zones.get 18 = some { room18 with bell := .sounding 2 4 1 5 } := by
  decide

/-- A zone under the drive, forced at its threshold, and free one level below it; each job drive. -/
theorem witness_DeliveredValues :
    let r : EvacRecord := { evac .drill .sounding with drive := some { tone := .evacuation, ticks := 1920, tags := [(18, 5)] } }
    let s := evacuating 5000 .normal (some r)
    let claimed : Zone := { room18 with claim := some { record := 5, bus := 1, talkBack := true } }
    s.modes.record = some r ∧ r.program = some 2 ∧ s.modes.programs.get 2 = some { fields := program2, lastResult := none } ∧
    r.drive.isSome = true ∧ (r.drive.bind (·.tags.get 18)) = some 5 ∧ (r.drive.bind (·.tags.get 19)) = none ∧ State.reset.modes.record = none ∧
    thresholdReached room18.config.bellThreshold .hold = true ∧ thresholdReached room18.config.bellThreshold .quiet = false ∧
    thresholdReached room18.config.speakerThreshold .alarm = true ∧ thresholdReached room18.config.speakerThreshold .drill = false ∧
    thresholdReached room18.config.auxThreshold .drill = true ∧ thresholdReached room18.config.auxThreshold .hold = false ∧
    room18.claim = none ∧ claimed.claim.isSome = true ∧ ({ claimed with bell := .sounding 2 4 0 5 } : Zone).bell.isSounding = true ∧
    claimed.bell.isSounding = false := by
  decide

/-- Positions and targets at the ends of the dial; a distance of 0; a lead of H, of H + 1, and of 1 with a pulse owed. -/
theorem witness_EvaluationDecidesALine :
    let d (target e : Nat) : Nat := (target + 720 - e) % 720
    719 < 720 ∧ (impulse .synced 719 65 2).position < 720 ∧ (719 + 1) % 720 = 0 ∧ d 719 719 = 0 ∧ d 0 0 = 0 ∧ 720 - d 0 65 ≤ 65 ∧ d 0 65 ≠ 0 ∧
    65 < 720 - d 0 66 ∧ 720 - d 0 1 = 1 ∧ (1 ≤ 1 ∧ 1 ≤ (impulse .synced 0 65 15).fast ∧ (impulse .synced 0 65 15).fast ≤ 15) ∧ ((impulse .synced 0 65 2).evaluate 719).state ≠ .advancing ∧
    ({ impulse .synced 0 65 2 with owed := .waiting } : Line).owed ≠ .none := by
  decide

/-- Line 11; a line that is Unset, one with a waiting pulse, and a Stopped one with a pulse in progress at its width. -/
theorem witness_StopTakesALineOut :
    let pulse : Line := { impulse .stopped 500 65 2 with owed := .inProgress 3 .b 8, sinceStart := 8 }
    let s := withLine State.reset 11 pulse
    s.resetHeld = false ∧ s.lines[11]? = some pulse ∧ pulse.state = .stopped ∧ pulse.owed = .inProgress 3 .b 8 ∧ 8 ≤ pulse.sinceStart ∧
    s.lines[0]? = some .por ∧ Line.por.state = .unset ∧
    (withLine State.reset 0 { impulse .synced 500 65 2 with owed := .waiting }).lines[0]? = some { impulse .synced 500 65 2 with owed := .waiting } := by
  decide

/-- Lines 11 and 12; a running line, a Stopped line of each kind, a Faulted one; time valid and not; a pulse in progress, a frame, neither; the
kinds 0, 1 and 2; an amendment that changes nothing and one that changes a limit. -/
theorem witness_LineControlsAndAmendments :
    let s (l : Line) : State := withLine (clockAt 702 27540) 11 l
    let coded : Line := { impulse .stopped 0 65 2 with kind := .coded }
    let pulse : Line := { impulse .synced 5 65 2 with owed := .inProgress 3 .b 8 }
    let framed : Line := { coded with state := .following, frame := some { hour := 7, minute := 39, second := 0, ticks := 11 } }
    (s .por).resetHeld = false ∧ 12 ≤ 12 ∧ (s .por).lines[11]? = some .por ∧ Line.por.state ≠ .stopped ∧ Line.por.state ≠ .faulted ∧
    (s coded).lines[11]? = some coded ∧ coded.state = .stopped ∧ coded.kind = .coded ∧ (s (impulse .faulted 719 65 2)).lines[11]? =
      some (impulse .faulted 719 65 2) ∧ (impulse .faulted 719 65 2).kind = .impulse ∧ State.reset.time.valid = false ∧ (s .por).time.valid = true ∧
    (s pulse).lines[11]? = some pulse ∧ pulse.owed = .inProgress 3 .b 8 ∧ (s framed).lines[11]? = some framed ∧ framed.frame.isSome = true ∧
    lineKindOf 0 = some .impulse ∧ lineKindOf 1 = some .coded ∧ lineKindOf 2 = none ∧ LineKind.impulse ≠ coded.kind ∧
    LineKind.coded ≠ Line.por.kind ∧ Line.por.frame = none ∧ coded.frame = none ∧ coded.owed = .none ∧
    (min 180 65 = Line.por.hold ∧ max 1 (min 15 2) = Line.por.fast ∧ max 4 (min 15 8) = Line.por.width) ∧ min 180 181 ≠ Line.por.hold := by
  decide

/-- The lowest waiting line with a slot free and with none; a pulse one tick short of its width and at it; an Advancing line at 16 × F ticks and
one short of it; a fault in a pulse and in a frame; a frame at 11 ticks and at 12. -/
theorem witness_PulsesAndFrames :
    let waiting : Line := { impulse .synced 0 65 2 with owed := .waiting }
    let busy (k : Nat) : Line := { impulse .synced 0 65 2 with owed := .inProgress k .a 8, sinceStart := 7 }
    let s := withLine (withLine State.reset 11 waiting) 0 (busy 0)
    let full := withLine (withLine (withLine s 1 (busy 1)) 2 (busy 2)) 3 (busy 3)
    s.resetHeld = false ∧ s.lines[11]? = some waiting ∧ waiting.owed = .waiting ∧ (∀ k < 11, (s.lines[k]?).map (·.owed) ≠ some .waiting) ∧
    (∀ k < 12, ∀ l, s.lines[k]? = some l → l.slotUsed ≠ some 3) ∧ (∀ slot < 4, ∃ k < 12, (full.lines[k]?).bind (·.slotUsed) = some slot) ∧
    (busy 0).owed = .inProgress 0 .a 8 ∧ (busy 0).sinceStart < 8 ∧ 8 ≤ ({ busy 0 with sinceStart := 8 } : Line).sinceStart ∧
    (busy 0).state.running = true ∧ (impulse .stopped 0 65 2).state.running = false ∧
    16 * 2 ≤ ({ impulse .advancing 0 65 2 with sinceStart := 32 } : Line).sinceStart ∧ ¬ 16 * 2 ≤ 31 ∧
    ({ impulse .following 0 65 2 with frame := some { hour := 7, minute := 39, second := 0, ticks := 11 } } : Line).frame.isSome = true ∧
    12 ≤ 12 ∧ ¬ 12 ≤ 11 ∧ (∀ k < 12, (State.reset.lines[k]?).map (·.owed) ≠ some .waiting) := by
  decide

/-- Zones 18 and 21 held by an announcement of some priority in slot 5 on bus 1, and zone 26 free. -/
def sharedAt (p : Priority) : State :=
  let claim : Zone := { newZone room with claim := some { record := 5, bus := 1, talkBack := false } }
  withRecord (withZone (withZone (withZone State.reset 18 claim) 21 claim) 26 room18) 5 (active 1 p .any (zones [18, 21]) 1 0 300)

/-- The announcement is Routine. -/
abbrev shared : State := sharedAt .routine

theorem shared_claims (p : Priority) (calls : CallList) : ClaimsLaw { sharedAt p with calls := calls } :=
  have all : ∀ p, claimsHold (sharedAt p) = true := by
    intro p
    cases p <;> decide +kernel
  claims_of_check (all p)

/-- Source 3, priority 2, coverage 0 and slot 0: a free zone 26 taken on bus 2; and zone 18, whose holder of a lower priority keeps zone 21. -/
theorem witness_AnnounceGrantsFreeZones :
    let f : AnnounceFields := { fields with zones := zones [26] }
    shared.resetHeld = false ∧ ClaimsLaw shared ∧ f.source ≤ 3 ∧ priorityOf f.priority = some .urgent ∧ coverageOf f.coverage = some .all ∧
    modeAllows shared.modes.effective .urgent = true ∧ (∀ e ∈ shared.arb.slots, e.2.live = true → e.2.source ≠ f.source) ∧
    shared.arb.slots.get 0 = none ∧ f.zones ≠ 0 ∧ (∀ z, mem f.zones z = true → shared.zones.get z ≠ none) ∧ f.talkBack = false ∧
    shared.arb.buses[2]? = some none ∧ (∀ b < 2, b ≠ 0 → shared.arb.buses[b]? ≠ some none) ∧
    (∀ z, mem (zones [26]) z = true ↔ mem f.zones z = true ∧ ∃ x, shared.zones.get z = some x ∧ x.claim = none) ∧
    (∀ z x cl b, mem f.zones z = true → shared.zones.get z = some x → x.claim = some cl → shared.arb.slots.get cl.record = some b →
      Priority.urgent.rank ≤ b.priority.rank) ∧
    zones [18] = single 64 18 ∧ (shared.zones.get 18).bind (·.claim) = some { record := 5, bus := 1, talkBack := false } ∧
    (shared.arb.slots.get 5).map (fun b => decide (b.priority.rank < Priority.urgent.rank ∧ b.held ≠ single 64 18)) = some true := by
  have only : ∀ z, mem (zones [26]) z = true → z = 26 := forall_mem (by decide)
  refine ⟨by decide, shared_claims .routine shared.calls, by decide, by decide, by decide, by decide, by decide, by decide, by decide, forall_mem (by decide), by decide,
    by decide, by decide, fun z => ⟨fun h => ⟨h, ?_⟩, fun h => h.1⟩, fun z x cl b h hx hc _ => ?_, by decide, by decide, by decide⟩
  · obtain rfl := only z h
    exact ⟨_, rfl, rfl⟩
  · obtain rfl := only z h
    obtain rfl : room18 = x := Option.some.inj hx
    simp [room18, newZone] at hc

/-- The three announcements of 7.12, all with coverage ALL, a bell deferred on zone 25. -/
def allActive : State :=
  let slots := threeActive.arb.slots.map (fun e : Nat × Announcement => (e.1, { e.2 with coverage := .all }))
  let s : State := { threeActive with arb := { threeActive.arb with slots := slots } }
  s.modifyZone 25 (fun x => { x with bell := .deferred 2 4 1030 60 })

/-- The zone is free, or held below Urgent. -/
def urgentMayTake (s : State) (z : Nat) : Bool :=
  match s.zones.get z with
  | some x => (match x.claim with
    | none => true
    | some c => (match s.arb.slots.get c.record with
      | some b => decide (b.priority.rank < Priority.urgent.rank)
      | none => false))
  | none => false

theorem urgent_takes {s : State} {z : Nat} (h : urgentMayTake s z = true) : ∃ x, s.zones.get z = some x ∧
    (x.claim = none ∨ ∃ c b, x.claim = some c ∧ s.arb.slots.get c.record = some b ∧ b.priority.rank < Priority.urgent.rank) := by
  unfold urgentMayTake at h
  split at h
  · rename_i x hx
    refine ⟨x, hx, ?_⟩
    split at h
    · exact .inl ‹_›
    · split at h
      · exact .inr ⟨_, _, ‹_›, ‹_›, of_decide_eq_true h⟩
      · cases h
  · cases h

/-- An Urgent request of source 3 without a free bus. Its victim is record 2 on bus 3, the Routine record with the shorter time; of the zones 16, 26
and 40 the records 0 and 1 keep a zone each, and of 16 and 20 record 0 keeps none; the victim's zones 21 and 25 are not asked for. With no
record at all bus 1 is free. -/
theorem witness_AnnounceGrantsFreeZones_whole :
    let s := allActive
    let elapsed (b : Announcement) : Nat := (s.time.counter - b.startSecond.getD s.time.counter).toNat
    let some_ := zones [16, 26, 40]
    let two := zones [16, 20]
    let empty := withZone State.reset 26 room18
    s.resetHeld = false ∧ ClaimsLaw s ∧ modeAllows s.modes.effective .urgent = true ∧
    (∀ e ∈ s.arb.slots, e.2.live = true → e.2.source ≠ 3) ∧ s.arb.slots.get 3 = none ∧ (∀ k < 3, s.arb.slots.get k ≠ none) ∧
    s.arb.slots.Sorted ∧ (∀ k < 4, k ≠ 0 → s.arb.buses[k]? ≠ some none) ∧
    s.arb.slots.get 2 = some { active 2 .routine .all (zones [21, 25]) 3 1010 300 with coverage := .all } ∧
    (∀ m w, s.arb.slots.get m = some w → m ≠ 2 → Priority.routine.rank < w.priority.rank ∨ (.routine = w.priority ∧ 30 < elapsed w)) ∧
    (∀ z, mem some_ z = true → ∃ x, s.zones.get z = some x ∧
      (x.claim = none ∨ ∃ c b, x.claim = some c ∧ s.arb.slots.get c.record = some b ∧ b.priority.rank < Priority.urgent.rank)) ∧
    (∀ z, mem two z = true → ∃ x, s.zones.get z = some x ∧
      (x.claim = none ∨ ∃ c b, x.claim = some c ∧ s.arb.slots.get c.record = some b ∧ b.priority.rank < Priority.urgent.rank)) ∧
    (∀ e ∈ s.arb.slots, e.2.state ≠ .waiting ∧ (e.2.live = true → e.2.coverage = .all)) ∧ some_ ≠ 0 ∧ two ≠ 0 ∧
    ((s.arb.slots.get 0).map (fun b => decide (b.held &&& some_ ≠ 0 ∧ b.held &&& ~~~some_ ≠ 0 ∧ b.held &&& two ≠ 0 ∧ b.held &&& ~~~two = 0))) =
      some true ∧ ((s.arb.slots.get 1).map (fun b => decide (b.held &&& two = 0))) = some true ∧
    mem some_ 21 = false ∧ (s.zones.get 21).map (·.bell) = some .idle ∧ (s.zones.get 25).map (·.bell) = some (.deferred 2 4 1030 60) ∧
    empty.arb.slots = [] ∧ empty.arb.buses[1]? = some none ∧ (empty.zones.get 26).map (·.claim) = some none ∧ ClaimsLaw empty := by
  refine ⟨by decide, claims_of_check (by decide +kernel), by decide, by decide, by decide, by decide, by unfold Table.Sorted; decide, by decide,
    by decide, Table.forall_get (by decide), fun z h => urgent_takes (forall_mem (P := fun z => urgentMayTake allActive z = true) (by decide) z h),
    fun z h => urgent_takes (forall_mem (P := fun z => urgentMayTake allActive z = true) (by decide) z h), ?_⟩
  exact ⟨by decide, by decide, by decide, by decide, by decide, by decide, by decide, by decide, by decide, by decide, by decide,
    claims_of_check (by decide +kernel)⟩

/-- Record 5 of 7.12's kind on zones 18 and 21, and record 6 beside it, with zone 26. -/
def paired (w : Announcement) (claim : Option Claim) : State :=
  withRecord (withZone (sharedAt .routine) 26 { newZone room with claim := claim }) 6 w

/-- An Active record with coverage ANY, holding zone 26 and asking for zone 18 too; and a Waiting one of zone 18. -/
def wanting : Announcement := { active 2 .routine .any (zones [18, 26]) 2 0 300 with held := zones [26] }

def waiting18 : Announcement :=
  { active 2 .routine .all (zones [18]) 0 0 300 with state := .waiting, held := 0, startSecond := none, waitLimit := 10 }

theorem paired_laws : ∀ p ∈ [(wanting, some { record := 6, bus := 2, talkBack := false : Claim }), (waiting18, none)],
    ClaimsLaw (paired p.1 p.2) ∧ LiveLaw (paired p.1 p.2) ∧ TablesLaw (paired p.1 p.2) := by
  have laws {s : State} (claims : claimsHold s = true) (live : LiveLaw s) (tables : TablesLaw s) : ClaimsLaw s ∧ LiveLaw s ∧ TablesLaw s :=
    ⟨claims_of_check claims, live, tables⟩
  rintro p h
  obtain rfl | h := List.mem_cons.1 h
  · refine laws (by decide +kernel) (live_of_check (by decide) (by decide) (by decide) (by decide) (by decide)) ?_
    unfold TablesLaw Table.Sorted
    decide
  · obtain rfl := List.mem_singleton.1 h
    refine laws (by decide +kernel) (live_of_check (by decide) (by decide) (by decide) (by decide) (by decide)) ?_
    unfold TablesLaw Table.Sorted
    decide

/-- RELEASE of record 5 beside each of them. -/
theorem witness_AnnounceGrantsFreeZones_regrant :
    ∀ p ∈ [(wanting, some { record := 6, bus := 2, talkBack := false : Claim }), (waiting18, none)],
      let s := paired p.1 p.2
      s.resetHeld = false ∧ (s.arb.slots.get 5).map (·.state) = some (.active 1) ∧ (∃ t, exec (.release 5) s = .next t) ∧
      s.arb.slots.get 6 = some p.1 ∧ (∀ k b, s.arb.slots.get k = some b → b.live = true → k = 5 ∨ k = 6) ∧
      (p.1.state = .waiting ∨ (p.1.state = .active 2 ∧ p.1.coverage = .any ∧ mem p.1.requested 18 = true)) ∧
      (∀ z, mem p.1.requested z = true → s.zones.get z ≠ none) := by
  rintro p h
  obtain rfl | h := List.mem_cons.1 h
  · exact ⟨by decide, by decide, ⟨_, rfl⟩, by decide, Table.forall_get (by decide), by decide, forall_mem (by decide)⟩
  · obtain rfl := List.mem_singleton.1 h
    exact ⟨by decide, by decide, ⟨_, rfl⟩, by decide, Table.forall_get (by decide), by decide, forall_mem (by decide)⟩

/-- Each operand at the end of its range and one beyond; a mode that forbids; a source in use; a wait limit of 0 and another; an empty set, a set
with a zone not held, and talk-back of two zones; 15 records and 16; a zone held at the same priority. -/
theorem witness_AnnounceRefusesOrWaits :
    let f : AnnounceFields := { fields with zones := zones [18], priority := 0 }
    let full : State := { State.reset with arb := { Arbiter.por with
      slots := (List.range 16).map (fun n => (n, active (n % 4) .routine .any 0 1 0 300)) } }
    shared.resetHeld = false ∧ 3 < 4 ∧ 1 < 2 ∧ priorityOf 3 = some .emergency ∧ priorityOf 4 = none ∧ f.source ≤ 3 ∧ f.coverage ≤ 1 ∧
    shared.modes.effective = .normal ∧ (evacuating 0 .alarm none).modes.effective = .alarm ∧ (∃ e ∈ shared.arb.slots, e.2.live = true ∧ e.2.source = 1) ∧
    (∀ e ∈ shared.arb.slots, e.2.live = true → e.2.source ≠ 3) ∧ (∀ n, n < 16 → full.arb.slots.get n ≠ none) ∧
    shared.arb.slots.get 0 = none ∧ f.zones ≠ 0 ∧ (∀ z, mem f.zones z = true → shared.zones.get z ≠ none) ∧ shared.zones.get 63 = none ∧
    f.talkBack = false ∧ coverageOf f.coverage = some .all ∧ mem f.zones 18 = true ∧
    (shared.zones.get 18).bind (·.claim) = some { record := 5, bus := 1, talkBack := false } ∧
    (shared.arb.slots.get 5).map (fun b => decide (Priority.routine.rank ≤ b.priority.rank)) = some true ∧ f.waitLimit ≠ 0 ∧
    { f with waitLimit := 0 }.waitLimit = 0 := by
  and_intros <;> first
    | decide
    | exact forall_mem (by decide)

/-- Records 15 and 16; a slot that is empty, one that is live and one that is Ended; the only live record; a maximum duration, a wait limit and
thirty seconds, each one second short and reached. -/
theorem witness_AnnouncementsEnd :
    let at_ (n : Counter) (a : Announcement) : State := withRecord { State.reset with time := { TimeBase.por with counter := n } } 15 a
    let live := active 1 .routine .any (zones [18]) 1 0 300
    let waiting : Announcement := { live with state := .waiting, held := 0, waitLimit := 10 }
    let ended : Announcement := { waiting with state := .ended .released 0 State.reset.time.stamp }
    15 < 16 ∧ (at_ 0 live).resetHeld = false ∧ State.reset.arb.slots.get 15 = none ∧ (at_ 0 ended).arb.slots.get 15 = some ended ∧
    (at_ 0 live).arb.slots.get 15 = some live ∧ live.live = true ∧ (∀ k b, (at_ 0 live).arb.slots.get k = some b → b.live = true → k = 15) ∧
    live.state = .active 1 ∧ live.maxDuration = some 300 ∧ live.startSecond = some 0 ∧ 300 ≤ ((at_ 300 live).time.counter - 0).toNat ∧
    ((at_ 299 live).time.counter - 0).toNat < 300 ∧ (at_ 9 waiting).arb.slots.get 15 = some waiting ∧ waiting.held = 0 ∧
    ((at_ 9 waiting).time.counter - waiting.arrivalSecond).toNat < waiting.waitLimit ∧
    waiting.waitLimit ≤ ((at_ 10 waiting).time.counter - waiting.arrivalSecond).toNat ∧
    30 ≤ ((at_ 30 ended).time.counter - 0).toNat ∧ ((at_ 29 ended).time.counter - 0).toNat < 30 := by
  exact ⟨by decide, by decide, by decide, by decide, by decide, by decide,
    fun k b h _ => Table.forall_get (P := fun k _ => k = 15) (by decide) k b h, by decide⟩

/-- A state with a call from zone 26, free, and from zone 18, held at Office priority. -/
def calling : State := { sharedAt .office with calls := { calls := [newCall shared 26, newCall shared 18], overflow := true } }

/-- Zones 63 and 64; a zone with no call and one with; Hold and Drill; source 0 in use and free; slots full and not; the zone free with bus 2 the
lowest free one, and held at Office. -/
theorem witness_AnswerCallAnnounces :
    let drill : State := { calling with modes := { calling.modes with effective := .drill } }
    let busy : State := withRecord calling 6 (active 0 .office .all (zones [26]) 2 0 300)
    let full : State := { calling with arb := { calling.arb with
      slots := (List.range 16).map (fun n => (n, active 1 .routine .any 0 1 0 300)) } }
    calling.resetHeld = false ∧ 63 < 64 ∧ (∀ c ∈ calling.calls.calls, c.zone ≠ 63) ∧ (∃ c ∈ calling.calls.calls, c.zone = 26) ∧
    (∃ c ∈ calling.calls.calls, c.zone = 18) ∧ 3 ≤ drill.modes.effective.level ∧ calling.modes.effective.level < 3 ∧
    (∃ e ∈ busy.arb.slots, e.2.live = true ∧ e.2.source = 0) ∧ (∀ e ∈ calling.arb.slots, e.2.live = true → e.2.source ≠ 0) ∧
    (∀ n, n < 16 → full.arb.slots.get n ≠ none) ∧ calling.arb.slots.get 0 = none ∧ calling.zones.get 26 = some room18 ∧ ClaimsLaw calling ∧
    room18.claim = none ∧ calling.arb.buses[2]? = some none ∧ calling.arb.buses[1]? ≠ some none ∧
    (calling.zones.get 18).bind (·.claim) = some { record := 5, bus := 1, talkBack := false } ∧
    (calling.arb.slots.get 5).map (fun b => decide (1 ≤ b.priority.rank)) = some true := by
  have claims : ClaimsLaw calling := shared_claims .office _
  generalize h : ClaimsLaw calling = p at claims ⊢
  and_intros <;> first
    | exact claims
    | decide

theorem witness_ClearCallRetiresTheCall :
    calling.resetHeld = false ∧ 63 < 64 ∧ ¬ 63 < 63 ∧ (∀ c ∈ calling.calls.calls, c.zone ≠ 63) ∧ (∃ c ∈ calling.calls.calls, c.zone = 26) := by
  decide

/-- Levels 2 and 3, programs 7 and 8; a program not held; Alarm and Drill; a record and none; an Office announcement under a rise to Drill. -/
theorem witness_ModesRise :
    let s := evacuating 5000 .normal none
    s.resetHeld = false ∧ ¬ 2 < 2 ∧ 2 < 3 ∧ 7 < 8 ∧ s.modes.programs.get 7 = none ∧
    s.modes.programs.get 2 = some { fields := program2, lastResult := none } ∧ (evacuating 5000 .alarm none).modes.effective = .alarm ∧
    s.modes.effective ≠ .alarm ∧ s.modes.record = none ∧ (evacuating 5000 .normal (some (evac .drill .sweep))).modes.record ≠ none ∧
    mem program2.zones 18 = true ∧ s.zones.get 18 = some room18 ∧ mem program2.zones 19 = false ∧
    s.modes.effective.level < Mode.drill.level ∧ modeAllows .drill .office = false ∧ modeAllows .hold .office = true := by
  decide

/-- No record; each phase; a drive at 0 ticks and at 1; a panel in Alarm and Normal; buildings 7 and 8, a muster building marked and not, the last
one and one of two; a target and a deadline one second short and reached. -/
theorem witness_EvacuationPhases :
    let tone (t : Tone) (n : Nat) : Option Drive := some { tone := t, ticks := n, tags := [(18, 4)] }
    let s (n : Counter) (r : EvacRecord) : State := evacuating n .normal (some r)
    let sounding (n : Nat) : EvacRecord := { evac .drill .sounding with drive := tone .evacuation n }
    let closing (n : Nat) : EvacRecord := { evac .drill .closing with drive := tone .allClear n, fixedResult := some .completed }
    let cleared : EvacRecord := { evac .drill .sweep with clears := (evac .drill .sweep).clears.set 2 (some { second := 30, manual := false }) }
    State.reset.resetHeld = false ∧ State.reset.modes.record = none ∧ (s 5000 (sounding 0)).modes.record = some (sounding 0) ∧
    (sounding 0).phase = .sounding ∧ (sounding 1).drive = tone .evacuation 1 ∧ (closing 0).phase = .closing ∧
    (closing 0).fixedResult = some .completed ∧ EvacResult.completed ≠ .interrupted ∧ (evac .alarm .sweep).kind = .alarm ∧
    (evacuating 5000 .alarm (some (evac .alarm .sweep))).modes.panel = .alarm ∧ (s 5000 (evac .drill .sweep)).modes.panel = .normal ∧
    { evac .alarm .mustered with program := none }.program = none ∧ (evac .drill .sweep).program = some 2 ∧
    (s 5000 cleared).modes.programs.get 2 = some { fields := program2, lastResult := none } ∧ mem program2.zones 18 = true ∧
    (s 5000 cleared).zones.get 18 = some room18 ∧ ¬ 7 < 7 ∧ 7 < 8 ∧ mem program2.muster 7 = false ∧ mem program2.muster 3 = true ∧
    (cleared.clears[2]?.getD none) ≠ none ∧ (cleared.clears[3]?.getD none) = none ∧ cleared.musteredAt = none ∧
    (∀ k < 8, k ≠ 3 → mem program2.muster k = true → (cleared.clears[k]?.getD none) ≠ none) ∧
    (∃ k, k ≠ 2 ∧ mem program2.muster k = true ∧ ((evac .drill .sweep).clears[k]?.getD none) = none) ∧
    program2.target ≤ ((s 5300 cleared).time.counter - 5000).toNat ∧ ((s 5299 cleared).time.counter - 5000).toNat < program2.target ∧
    program2.deadline ≤ ((s 5480 cleared).time.counter - 5000).toNat ∧ ((s 5479 cleared).time.counter - 5000).toNat < program2.deadline ∧
    cleared.overdue = false ∧ cleared.musterLate = false := by
  and_intros <;> first
    | decide
    | exact ⟨3, by decide⟩

/-- A window of 31 ticks and of 32; no edge, one edge, nine edges; a run of 0 and of 1; a quiet run one short of the clear windows and two short;
each state of the key, a press of 47 ticks and of 48; a key that may and may not start a drill. -/
theorem witness_PanelAndKey :
    let m : ModeControl := { ModeControl.por with windowTicks := 32 }
    let s (m : ModeControl) : State := { State.reset with modes := m }
    let drill := evac .drill .sweep
    let key (enable : Bool) : State := { s { m with key := .timing 48, programs := [(0, { fields := program2, lastResult := none })] } with
      cal := { Calendar.por with site := { Site.por with keyEnable := enable } } }
    (s m).resetHeld = false ∧ 31 < 32 ∧ 32 ≤ (s m).modes.windowTicks ∧ (s m).modes.panel = .normal ∧
    ¬ ((s m).modes.lastSample = true ∨ 1 ≤ (s m).modes.edges) ∧ 1 ≤ (s { m with edges := 1 }).modes.edges ∧ 9 ≤ (s { m with edges := 9 }).modes.edges ∧
    (s { m with lastSample := true }).modes.lastSample = true ∧ (s m).modes.alarmRun = 0 ∧ 1 ≤ (s { m with alarmRun := 1 }).modes.alarmRun ∧
    (s { m with panel := .alarm }).modes.panel = .alarm ∧ (s { m with quietRun := 3 }).modes.quietRun + 1 < (s m).cal.site.clearWindows ∧
    (s m).cal.site.clearWindows ≤ (s { m with quietRun := 4 }).modes.quietRun + 1 ∧ (s m).modes.record = none ∧
    (s { m with record := some drill }).modes.record = some drill ∧ drill.kind = .drill ∧ (evac .alarm .sweep).kind = .alarm ∧
    (evac .alarm .sweep).phase ≠ .closing ∧ (s m).modes.programs.get (s m).cal.site.alarmProgram = none ∧ 47 < 48 ∧
    (s { m with key := .released 47 }).modes.key = .released 47 ∧ (key true).modes.key = .timing 48 ∧ (key true).modes.effective ≠ .alarm ∧
    (key true).cal.site.keyEnable = true ∧ (key true).modes.programs.get 0 ≠ none ∧ (key false).cal.site.keyEnable = false ∧
    (s { m with effective := .alarm }).modes.effective = .alarm := by
  decide

/-- A slot open and not; a probe slot and an ordinary one; marks of none and of 7; the unit next after the mark, one with no unit to poll. -/
theorem witness_SlotsPollAndProbe :
    let s := linked 0 1
    let lost : State := withBuilding (linked 0 0) 7 { online with link := .lost }
    let place (mark : Option Nat) (k : Nat) : Nat := match mark with
      | none => k
      | some m => (k + 7 - m) % 8
    s.resetHeld = false ∧ s.link.buildings[2]? = some { online with pending := 17 } ∧ s.link.slotOpen = true ∧ s.link.exchange = none ∧
    State.reset.link.slotOpen = false ∧ s.link.slotCounter ≠ 0 ∧ lost.link.slotCounter = 0 ∧ lost.link.buildings[7]? = some { online with link := .lost } ∧
    (∀ m, s.link.lastPolled = some m → m < 8) ∧ lost.link.lastProbed = none ∧ place none 0 = 0 ∧ place (some 7) 0 = 0 ∧ place (some 7) 7 = 7 ∧
    (∀ k < 8, (∃ y : Building, s.link.buildings[k]? = some y ∧ y.present = true ∧ y.link ≠ .lost) →
      place s.link.lastPolled 2 ≤ place s.link.lastPolled k) ∧
    (∀ k < 8, (∃ y : Building, lost.link.buildings[k]? = some y ∧ y.present = true ∧ y.link = .lost) → place none 7 ≤ place none k) ∧
    mem ({ online with pending := 17 } : Building).pending 0 = true ∧ s.store.patterns.get 0 = some { steps := [{ on := 32, off := 0 }], refs := 0 } := by
  refine ⟨by decide, by decide, by decide, by decide, by decide, by decide, by decide, by decide, fun m h => ?_, ?_⟩
  · obtain rfl : 1 = m := Option.some.inj h
    decide
  · refine ⟨by decide, by decide, by decide, by decide, fun k hk h => ?_, fun k hk h => ?_, by decide, by decide⟩ <;>
      interval_cases k <;> revert h <;> simp +decide

/-- A count of U and of U + 1; a window one report short and at its end, the first and a later one; no exchange, a poll and a probe; misses of 1 and
of 2; a report from another address, one out of its encodings, a good one with a matching echo. -/
theorem witness_ExchangesEnd :
    let degraded (first : Bool) (n : Nat) : Zone := { room18 with path := .degraded, reports := n, firstWindow := first }
    let b (l : LinkState) (n : Nat) : Building := { online with link := l, misses := n, inFlight := some { pattern := 4, amended := false } }
    let s (x : Building) (probe : Bool) : State :=
      let u := withBuilding (withZone (withPatterns State.reset) 18 room18) 7 x
      { u with link := { u.link with exchange := some { building := 7, probe := probe } } }
    let r : Report := { address := 7, zones := [{ zone := 63, count := 8, level := false }], clear := false, ampFault := false, echo := some 4 }
    room18.path = .good ∧ 8 ≤ room18.config.upper ∧ room18.config.upper < 9 ∧ (degraded true 2).reports + 1 < 4 ∧ 4 ≤ (degraded true 3).reports + 1 ∧
    (degraded false 14).reports + 1 < room18.config.window ∧ room18.config.window ≤ (degraded false 15).reports + 1 ∧
    State.reset.link.exchange = none ∧ (s (b .online 1) false).resetHeld = false ∧ (s (b .online 1) false).zones.Sorted ∧
    (s (b .online 1) false).link.exchange = some { building := 7, probe := false } ∧
    (s (b .online 1) false).link.buildings[7]? = some (b .online 1) ∧ (b .lost 3).link = .lost ∧ (b .online 1).link ≠ .lost ∧
    (b .online 1).misses < 2 ∧ 2 ≤ (b .online 2).misses ∧ r.address = 7 ∧ goodReportFrame r = true ∧ { r with address := 6 }.address ≠ 7 ∧
    goodReportFrame { r with echo := some 16 } = false ∧ (b .online 1).inFlight = some { pattern := 4, amended := false } ∧ r.echo = some 4 ∧
    (s (b .online 1) false).zones.get 18 = some room18 ∧ room18.config.building ≠ 7 ∧ Building.levelsKnown (Building.atRelease 7 1 7) = false := by
  unfold Table.Sorted
  decide

/-- A slot that has ended and one that has not; a report that presses zone 18, clears building 2, the last muster building, and reports its amplifier
fault; the same from a building whose levels are not known. -/
theorem witness_ExchangesEnd_report :
    let q : EvacRecord := { evac .drill .sweep with clears := (evac .drill .sweep).clears.set 3 (some { second := 30, manual := false }) }
    let b : Building := { online with eligible := single 64 18 }
    let s (b : Building) (ended : Bool) : State :=
      let u := withBuilding (evacuating 5060 .normal (some q)) 2 b
      { u with link := { u.link with exchange := some { building := 2, probe := false }, slotOpen := ended } }
    let r : Report := { address := 2, zones := [{ zone := 18, count := 0, level := true }], clear := true, ampFault := true, echo := none }
    (s b true).link.slotOpen = true ∧ (s b false).link.slotOpen = false ∧ (s b false).resetHeld = false ∧ (s b false).zones.map (·.1) = [18] ∧
    (s b false).link.exchange = some { building := 2, probe := false } ∧ (s b false).link.buildings[2]? = some b ∧ goodReportFrame r = true ∧
    b.levelsKnown = true ∧ { b with levelsKnown := false }.levelsKnown = false ∧ mem b.callLevels 18 = false ∧ mem b.eligible 18 = true ∧
    (s b false).zones.get 18 = some room18 ∧ room18.config.building = 2 ∧ room18.config.callSwitch = true ∧
    (∀ c ∈ (s b false).calls.calls, c.zone ≠ 18) ∧ (s b false).modes.record = some q ∧ b.clearLevel = false ∧ q.program = some 2 ∧
    (s b false).modes.programs.get 2 = some { fields := program2, lastResult := none } ∧ mem program2.muster 2 = true ∧
    (q.clears[2]?.getD none) = none ∧ q.phase ≠ .closing ∧ q.musteredAt = none ∧
    (∀ k < 8, k ≠ 2 → mem program2.muster k = true → (q.clears[k]?.getD none) ≠ none) ∧ b.ampFault = false ∧ mem q.ampFaults 2 = false ∧
    program2.muster = 12 := by
  decide +kernel

/-- The two ends of the range of words that do not decode. -/
theorem witness_AttentionServes : State.reset.resetHeld = false ∧ 2048 ≤ 2048 ∧ 2048 ≤ 65535 ∧ 65535 < 65536 := by decide

/-- A kind byte of 0 and of 3; a frame cut short; a length of 2 with no body; and a frame that decodes. -/
theorem witness_PortCommands_frames :
    ([0] : List Byte).head? ≠ some 1 ∧ ([0] : List Byte).head? ≠ some 2 ∧ ([3] : List Byte).head? ≠ some 1 ∧
    ([3] : List Byte).head? ≠ some 2 ∧ decodeRequest (1 :: [2, 99]) = none ∧
    decodeRequest (1 :: [3, 26, 0, 2, 132, 97]) = some (.markBuilding 2) ∧ checkedFrame (1 :: [2, 99]) = none ∧
    decodeRequest (requestFrame 3 11 ([] ++ [])) = none ∧ decodeRequest (requestFrame 4 2 ([3, 4, 11] ++ [])) = none ∧
    decodeRequest (requestFrame 1 13 ([4] ++ [0, 0])) = none ∧ [4].length + (List.replicate 252 (0 : Byte)).length = 253 := by
  decide +kernel

/-- An empty buffer, one not ready and one that holds a reply; a read frame that ends one byte before the reply's last and with it. -/
theorem witness_PortCommands :
    let s := after .silence State.reset
    let r : Reply := { code := 24, result := .notFound, lost := false, body := .empty }
    State.reset.resetHeld = false ∧ State.reset.port.reply = .empty ∧ (after .requestFrameDiscarded State.reset).port.reply = .notReady ∧
    s.port.reply = .held r ∧ (replyBytes r).length = 6 ∧ 6 ≤ (replyBytes r).length ∧ (replyBytes r).length < 7 := by
  decide +kernel

end Sys2Proof.Tests
end

