-- ==== Sys2Proof/Proofs/TimeReference.lean ====
section
/-! SUPPORT. What a standard step leaves of the Time Base (R7, R8), what a taken pulse does with its label (R11, R12), and the proof about
TIME REFERENCE (R10). -/

namespace Sys2Proof.Machine

variable {s t u : State}

/-! ### Operations that leave the Time Base as it is -/

theorem forEach_time {f : State → Nat → State} (l : List Nat) (h : ∀ s n, (f s n).time = s.time) :
    (s.forEach l f).time = s.time :=
  forEach_induct (fun t => t.time = s.time) f l (fun t n ht => (h t n).trans ht) rfl

theorem dispatcher_time {f : State → Nat → State} (h : ∀ s n, (f s n).time = s.time) : (s.dispatcher f).time = s.time := by
  unfold State.dispatcher
  split
  · rfl
  · exact forEach_time _ h

@[simp] theorem State.onLines_time (s : State) (f : Line → Line) : (s.onLines f).time = s.time := by
  unfold State.onLines; split <;> rfl

@[simp] theorem State.evaluateLines_time (s : State) : s.evaluateLines.time = s.time := State.onLines_time ..

@[simp] theorem State.countDivision_time (d : Day) (s : State) (v : Nat) : (s.countDivision d v).time = s.time := by
  simp [State.countDivision]

@[simp] theorem State.lookBackDivision_time (d : Day) (s : State) (v : Nat) : (s.lookBackDivision d v).time = s.time := by
  simp [State.lookBackDivision]

@[simp] theorem State.takeCopy_time (s : State) (v : Nat) : (s.takeCopy v).time = s.time := by
  unfold State.takeCopy; split <;> rfl

@[simp] theorem State.restartCounts_time (m : Mark) (s : State) (v : Nat) : (s.restartCounts m v).time = s.time := rfl

@[simp] theorem State.setMark_time (s : State) (v n : Nat) : (s.setMark v n).time = s.time := rfl

@[simp] theorem State.rolloverNotice_time (s : State) (v : Nat) : (s.rolloverNotice v).time = s.time := by
  unfold State.rolloverNotice; split <;> simp

@[simp] theorem State.backwardNotice_time (s : State) (v : Nat) : (s.backwardNotice v).time = s.time := by
  unfold State.backwardNotice; split <;> simp

/-! ### Entries that a step reaches -/

theorem Kept.takeEntry (late : Nat) (s : State) (e : Entry) : Kept s (s.takeEntry late e) := by
  unfold State.takeEntry
  split
  · exact .forEach _ _ fun s z => .bellOnZone s ..
  · exact .forEach _ _ fun s z => .auxOnZone s ..
  · exact .forEach _ _ fun s z => .auxOnZone s ..

theorem Kept.takeLateEntry (limit ends : Nat) (s : State) (e : Entry) : Kept s (s.takeLateEntry limit ends e) := by
  unfold State.takeLateEntry
  dsimp only
  split
  · split
    · exact .takeEntry ..
    · exact .forEach _ _ fun s z => .missOnZone s z
  · exact .takeEntry ..

theorem Kept.takeLate (s : State) (v upTo ends : Nat) (d : Day) : Kept s (s.takeLate v upTo ends d) := by
  unfold State.takeLate
  dsimp only
  split
  · exact .foldl _ _ fun s e => .takeLateEntry _ _ s e
  · exact .refl s

theorem Kept.forwardWithin (second : Nat) (d : Day) (s : State) (v : Nat) : Kept s (s.forwardWithin second d v) := by
  unfold State.forwardWithin
  split
  · exact (Kept.takeLate ..).trans (.modifyDivision ..)
  · exact .refl s

/-! ### Rollovers and the step event -/

/-- State t's Time Base is state s's but for the time-shift records. -/
def MovesShifts (s t : State) : Prop := t.time = { s.time with shifts := t.time.shifts }

theorem MovesShifts.of_time_eq (h : t.time = s.time) : MovesShifts s t := by unfold MovesShifts; rw [h]

theorem MovesShifts.dispatcher {f : State → Nat → State} (s : State) (h : ∀ s v, Kept s (f s v)) : MovesShifts s (s.dispatcher f) :=
  .of_time_eq (dispatcher_time fun s v => (h s v).time)

theorem MovesShifts.trans (h : MovesShifts s t) (k : MovesShifts t u) : MovesShifts s u := by
  unfold MovesShifts at *
  rw [k, h]

/-- R26: a rollover changes the Time Base by the shift records it retires alone. -/
theorem MovesShifts.rolloverCalendar (s : State) (d : Day) : MovesShifts s (s.rolloverCalendar d) := by
  have counted := forEach_time (s := { s with cal := { s.cal with today := some d } }) divisionNumbers (State.countDivision_time d)
  simp only [MovesShifts, State.rolloverCalendar, counted]

/-- R29: a backward-rollover changes the Time Base by the shift records it retires alone. -/
theorem MovesShifts.backwardRollover (s : State) (d : Day) : MovesShifts s (s.backwardRollover d) := by
  have looked := forEach_time (s := { s with cal := { s.cal with today := some d } }) divisionNumbers (State.lookBackDivision_time d)
  simp only [MovesShifts, State.backwardRollover, State.raise_time, forEach_time divisionNumbers State.backwardNotice_time, looked]

theorem MovesShifts.stepRollover (s : State) (d : Day) : MovesShifts s (s.stepRollover d) :=
  (MovesShifts.rolloverCalendar s d).trans (.of_time_eq (forEach_time _ State.rolloverNotice_time))

theorem MovesShifts.stepRollovers (k : Nat) (s : State) (d : Day) : MovesShifts s (State.stepRollovers k s d) := by
  induction k generalizing s d with
  | zero => exact .of_time_eq rfl
  | succ k ih => exact (MovesShifts.stepRollover s d).trans (ih ..)

theorem MovesShifts.forwardAcross (s : State) (old : Day) (k second : Nat) : MovesShifts s (s.forwardAcross old k second) := by
  unfold State.forwardAcross
  dsimp only
  refine .trans (t := { s with freeCount := s.freeCount + 1 }) (.of_time_eq rfl) ?_
  refine .trans ?_ (.dispatcher _ fun s v => .forwardWithin _ _ s v)
  refine .trans ?_ (.stepRollovers ..)
  refine .trans ?_ (.of_time_eq (forEach_time _ State.rolloverNotice_time))
  cases Config.oldDayFirst s.freeCount with
  | true => exact .trans (.dispatcher _ fun s v => .takeLate s v ..) (.rolloverCalendar ..)
  | false => exact .trans (.rolloverCalendar ..) (.dispatcher _ fun s v => .takeLate s v ..)

/-- R7: whatever the direction of a step, its event changes the Time Base by the shift records alone. -/
theorem MovesShifts.stepEvent (s : State) (old : CivilTime) : MovesShifts s (s.stepEvent old) := by
  unfold State.stepEvent
  refine .trans ?_ (.of_time_eq (State.evaluateLines_time _))
  refine .trans (.of_time_eq (State.raise_time s .time)) ?_
  split
  · split
    · exact .dispatcher _ fun s v => .forwardWithin _ _ s v
    · exact .forwardAcross ..
  · split
    · exact .of_time_eq rfl
    · exact .backwardRollover ..

theorem MovesShifts.validatingEvent (s : State) : MovesShifts s s.validatingEvent :=
  .trans (.of_time_eq (State.raise_time s .time))
    (.trans (.stepRollover ..) (.of_time_eq (dispatcher_time fun s v => State.setMark_time s v _)))

/-- R6 and R7: a standard step leaves time valid at the given place, and all else of the Time Base but the offset and the shift records. -/
theorem standardStep_time (s : State) (d : Day) (n : Nat) (o : Option Int) :
    (s.standardStep d n o).time = { s.time.standardAt d n with
      valid := true, offset := (s.standardStep d n o).time.offset, shifts := (s.standardStep d n o).time.shifts } := by
  unfold State.standardStep
  cases hv : s.time.valid with
  | true =>
    have passed := congrArg State.time (MovesOffset.passRecords
      { s with time := { s.time.standardAt d n with offset := o.getD (s.time.standardAt d n).offset } } s.time.civil)
    have stepped := MovesShifts.stepEvent (State.passRecords
      { s with time := { s.time.standardAt d n with offset := o.getD (s.time.standardAt d n).offset } } s.time.civil) s.time.civil
    simp only [if_true]
    rw [stepped, passed]
    simp [TimeBase.standardAt, hv]
  | false =>
    have validated := MovesShifts.validatingEvent
      { s with time := { s.time.standardAt d n with offset := o.getD (s.time.standardAt d n).offset, valid := true } }
    simp only [Bool.false_eq_true, if_false]
    rw [validated]

@[simp] theorem standardStep_pendingLabel (s : State) (d : Day) (n : Nat) (o : Option Int) :
    (s.standardStep d n o).time.pendingLabel = s.time.pendingLabel := by rw [standardStep_time]; rfl

@[simp] theorem standardStep_lastLabel (s : State) (d : Day) (n : Nat) (o : Option Int) :
    (s.standardStep d n o).time.lastLabel = s.time.lastLabel := by rw [standardStep_time]; rfl

/-! ### The pending label (R9 to R11) -/

theorem exec_timeReference (day : Day) (second : Nat) (s : State) :
    exec (.timeReference day second) s = execTimeReference day second s := by
  rfl

theorem exec_refPulse (s : State) : exec .refPulse s = execRefPulse s := by
  rfl

theorem exec_setTime (day : Day) (second : Nat) (offset : Option Int) (s : State) :
    exec (.setTime day second offset) s = execSetTime day second offset s := by
  rfl

/-- R10: the state after TIME REFERENCE has taken its label, before the reply. -/
def State.holdLabel (s : State) (l : Label) : State := { s with time := { s.time with pendingLabel := some l } }

/-- R10: TIME REFERENCE outside reset. -/
theorem exec_timeReference_open (h : s.resetHeld = false) (day : Day) (second : Nat) :
    exec (.timeReference day second) s = .next (answered (s.holdLabel { day := day, second := min 86399 second }) 17
      (if 86399 < second then .clamped else .ok)
      (.snapshot (s.holdLabel { day := day, second := min 86399 second }).time.snapshot)) := by
  rw [exec_timeReference, execTimeReference, takeRequest_open h]
  simp [timeReferenceAnswer, okOrClamped, State.holdLabel]

/-- R10: what a pulse or SET TIME finds after TIME REFERENCE. -/
theorem timeReference_time {day : Day} {second : Nat} (h : s.resetHeld = false)
    (run : exec (.timeReference day second) s = .next t) :
    t.resetHeld = false ∧ t.time = { s.time with pendingLabel := some { day := day, second := min 86399 second } } := by
  rw [exec_timeReference_open h] at run
  cases run
  exact ⟨h, rfl⟩

/-- R11: a taken pulse uses its label as the last label and discards a pending one, whether it slews or steps. -/
theorem takePulse_labels (s : State) (l : Label) :
    (s.takePulse l).time.lastLabel = some l ∧ (s.takePulse l).time.pendingLabel = none := by
  unfold State.takePulse
  simp only [State.raiseIf_time]
  split
  · exact ⟨rfl, rfl⟩
  · simp

/-- R11: a pulse at an age of 8 ticks or more takes a pending label, whatever the reference state. -/
theorem exec_refPulse_of_pending {l : Label} (age : 8 ≤ s.time.pulseAge) (h : s.time.pendingLabel = some l) :
    exec .refPulse s = .next (s.takePulse l) := by
  have notYoung : ¬ s.time.pulseAge < 8 := by omega
  simp [exec_refPulse, execRefPulse, pulseLabel, notYoung, h]

/-- R9: SET TIME outside reset discards a pending label. -/
theorem setTime_pendingLabel {day : Day} {second : Nat} {offset : Option Int} (h : s.resetHeld = false)
    (run : exec (.setTime day second offset) s = .next t) : t.time.pendingLabel = none := by
  rw [exec_setTime, execSetTime, takeRequest_open h] at run
  cases run
  rfl

/-- Settles O31: the label that TIME REFERENCE holds stands in its reply's state, where a pulse and SET TIME find it. -/
theorem timeReferenceWaitsForAPulse : Obligations.TimeReferenceWaitsForAPulse := by
  intro day second s outside
  refine ⟨exec_timeReference_open outside day second, fun t u taken age pulse => ?_, fun t u d n o taken set => ?_⟩
  · obtain ⟨-, held⟩ := timeReference_time outside taken
    have old : 8 ≤ t.time.pulseAge := by rw [held]; exact age
    rw [exec_refPulse_of_pending old (by rw [held])] at pulse
    cases pulse
    exact takePulse_labels ..
  · obtain ⟨still, -⟩ := timeReference_time outside taken
    exact setTime_pendingLabel still set

end Sys2Proof.Machine
end

