-- ==== Sys2Proof/Proofs/ClockLines.lean ====
section
/-! SUPPORT. How one line of the row reads after a change, what an evaluation decides (R75, R76), what STOP leaves of a line, and what a
Stopped line's pulse, fault, boundary and amendment do (R71, R80, R81, R83), and the proofs about the evaluation and STOP. -/

namespace Sys2Proof.Machine

variable {s : State} {l : Line} {n : Nat}

/-! ### One line of the row -/

/-- A changed line reads as changed. -/
theorem modifyLine_at (held : s.lines[n]? = some l) (f : Line → Line) : (s.modifyLine n f).lines[n]? = some (f l) := by
  simp [updateAt_get, held]

/-- Every other line reads as before. -/
theorem modifyLine_elsewhere {k : Nat} (other : k ≠ n) (f : Line → Line) : (s.modifyLine n f).lines[k]? = s.lines[k]? := by
  simp [updateAt_get, other]

/-! ### The evaluation (R73 to R76) -/

/-- R73: the effective position, by the owed pulse itself. -/
theorem Line.effective_eq (l : Line) : l.effective = if l.owed = .none then l.position else (l.position + 1) % 720 := by
  by_cases idle : l.owed = .none <;> simp [Line.effective, Line.owes, idle]

theorem Line.owes_iff (l : Line) : l.owes = true ↔ l.owed ≠ .none := by simp [Line.owes]

/-- R76 and R79: beginning to wait changes the owed pulse alone. -/
theorem Line.beginFastWait_eq (l : Line) : l.beginFastWait = { l with owed := l.beginFastWait.owed } := by
  unfold Line.beginFastWait
  split <;> rfl

@[simp] theorem Line.beginFastWait_state (l : Line) : l.beginFastWait.state = l.state := by rw [Line.beginFastWait_eq]

@[simp] theorem Line.beginFastWait_predicted (l : Line) : l.beginFastWait.predicted = l.predicted := by rw [Line.beginFastWait_eq]

/-- R75: the state after an evaluation, which the state before is no part of. -/
theorem Line.evaluate_state (target : Nat) (l : Line) :
    (l.evaluate target).state = decideState (dialDistance target l.effective) l.hold l.owes := by simp [Line.evaluate]

/-- R76: the predicted pulses after an evaluation. -/
theorem Line.evaluate_predicted (target : Nat) (l : Line) : (l.evaluate target).predicted =
    if (l.evaluate target).state = .advancing then predictedPulses (dialDistance target l.effective) l.fast else 0 := by
  simp [Line.evaluate]

/-! The three rows of Table 5-2, the middle one by the owed pulse. -/

@[simp] theorem decideState_level (hold : Nat) (owes : Bool) : decideState 0 hold owes = .synced := rfl

theorem decideState_near {d hold : Nat} (behind : d ≠ 0) (near : 720 - d ≤ hold) (owes : Bool) :
    decideState d hold owes = if owes = true ∧ 720 - d = 1 then .synced else .holding := by simp [decideState, behind, near]

theorem decideState_far {d hold : Nat} (behind : d ≠ 0) (far : hold < 720 - d) (owes : Bool) :
    decideState d hold owes = .advancing := by simp [decideState, behind, Nat.not_le.mpr far]

/-- R76: rounding D × 60 over 60 − F up is adding 59 − F before the division. -/
theorem predictedPulses_eq (d : Nat) {fast : Nat} (short : fast ≤ 15) :
    predictedPulses d fast = (d * 60 + 59 - fast) / (60 - fast) := by
  have numerators : d * 60 + (60 - fast) - 1 = d * 60 + 59 - fast := by omega
  rw [predictedPulses, numerators]

/-- Settles O45: the rows of Table 5-2 at the dial distance of the effective position, and N by the state decided. -/
theorem evaluationDecidesALine : Obligations.EvaluationDecidesALine := by
  refine ⟨fun _ => rfl, ?_⟩
  rintro l target e d a - - rfl distance rfl
  rw [← l.effective_eq] at distance
  change d = dialDistance target l.effective at distance
  have decided := l.evaluate_state target
  have predicted := l.evaluate_predicted target
  rw [← distance] at decided predicted
  refine ⟨fun level => ?_, fun behind near notMinute => ?_, fun behind near owed one => ?_, fun behind far => ?_,
    fun still => by rw [predicted, if_neg still], fun before => ?_⟩
  · rw [decided, level, decideState_level]
  · rw [decided, decideState_near behind near, if_neg (by rwa [l.owes_iff])]
  · rw [decided, decideState_near behind near, if_pos ⟨l.owes_iff.mpr owed, one⟩]
  · have advancing : (l.evaluate target).state = .advancing := by rw [decided, decideState_far behind far]
    exact ⟨advancing, fun _ short => by rw [predicted, if_pos advancing, predictedPulses_eq d short]⟩
  · rw [Line.evaluate_state, Line.evaluate_state]
    rfl

/-! ### STOP (R83) -/

theorem exec_lineControlStop (n : Nat) (s : State) : exec (.lineControlStop n) s = execLineControlStop n s := by
  rfl

theorem exec_pulseCompletion (n : Nat) (s : State) : exec (.pulseCompletion n) s = execPulseCompletion n s := by
  rfl

theorem exec_lineFault (n : Nat) (overcurrent openCircuit : Bool) (s : State) :
    exec (.lineFault n overcurrent openCircuit) s = execLineFault n overcurrent openCircuit s := by
  rfl

/-- R83: withdrawing a wait changes the owed pulse alone, and only a waiting one. -/
theorem Line.withdrawWait_eq (l : Line) : l.withdrawWait = { l with owed := if l.owed = .waiting then .none else l.owed } := by
  unfold Line.withdrawWait
  split <;> rfl

/-- R83: what STOP leaves of a line. -/
theorem Line.stop_eq (l : Line) : l.stop = if l.state = .unset then l else { l with
    state := .stopped, predicted := 0, owed := if l.owed = .waiting then .none else l.owed } := by
  rw [Line.stop, Line.withdrawWait_eq]

/-- R83: STOP of a line outside reset; time's validity is no part of it. -/
theorem exec_lineControlStop_open (outside : s.resetHeld = false) (held : s.lines[n]? = some l) :
    exec (.lineControlStop n) s = .next (answered (s.modifyLine n fun _ => l.stop) 27 .ok (.lineRecord l.stop)) := by
  rw [exec_lineControlStop, execLineControlStop, takeRequest_open outside]
  simp [stopLineAnswer, held, lineAnswer]

/-! ### A pulse of a Stopped line (R71, R80, R81) -/

/-- R71 and R80: a Stopped line's pulse counts, and the line is not decided. -/
theorem Line.complete_of_stopped (target : Nat) (stopped : l.state = .stopped) : l.complete target =
    ({ l with position := (l.position + 1) % 720, polarity := flipPolarity l.polarity, owed := .none }, false) := by
  simp [Line.complete, stopped, LineState.running]

/-- R71: a Stopped line's completion outside reset, once the pulse has lasted its width, with no event raised. -/
theorem exec_pulseCompletion_of_stopped (outside : s.resetHeld = false) (held : s.lines[n]? = some l) (stopped : l.state = .stopped)
    (due : l.pulseDue = true) : exec (.pulseCompletion n) s = .next (s.modifyLine n fun _ =>
      { l with position := (l.position + 1) % 720, polarity := flipPolarity l.polarity, owed := .none }) := by
  rw [exec_pulseCompletion, execPulseCompletion, takeEvent_open outside]
  simp [State.completePulse, held, due, Line.complete_of_stopped _ stopped]

/-- R81: an overcurrent sensed on a line in a pulse, whatever its state. -/
theorem exec_lineFault_of_overcurrent (outside : s.resetHeld = false) (held : s.lines[n]? = some l) (pulsing : l.pulsing = true) :
    exec (.lineFault n true false) s = .next ((s.modifyLine n (·.faultWith .overcurrent)).raise .line) := by
  rw [exec_lineFault, execLineFault, takeEvent_open outside]
  simp [State.senseFault, held, Line.driven, pulsing, causeOf]

/-! ### What a Stopped line does not do (R78, R85, R87) -/

theorem Line.minuteBoundary_of_stopped (target : Nat) (stopped : l.state = .stopped) : l.minuteBoundary target = (l, false) := by
  simp [Line.minuteBoundary, stopped]

theorem Line.evaluateRunning_of_stopped (target : Nat) (stopped : l.state = .stopped) : l.evaluateRunning target = l := by
  simp [Line.evaluateRunning, stopped, LineState.running]

/-- R85: an amendment that keeps the kind changes the three limits alone. -/
theorem Line.amend_same_kind (l : Line) (hold fast width : Nat) :
    l.amend l.kind hold fast width = { l with hold := hold, fast := fast, width := width } := by
  cases kind : l.kind <;> simp [Line.amend, kind]

/-- Settles O46: the command, then a pulse still in progress, then the boundary, the step's evaluation and an amendment. -/
theorem stopTakesALineOut : Obligations.StopTakesALineOut := by
  refine ⟨?command, ?pulse, fun l target hold fast width stopped => ⟨l.minuteBoundary_of_stopped target stopped,
    l.evaluateRunning_of_stopped target stopped, l.amend_same_kind hold fast width⟩⟩
  case command =>
    rintro n l m s outside held rfl
    rw [← l.stop_eq]
    exact ⟨_, exec_lineControlStop_open outside held, modifyLine_at held _, fun k other => modifyLine_elsewhere other _⟩
  case pulse =>
    intro n slot width polarity l s outside held stopped owed
    refine ⟨fun lasted => ?_, ?_⟩
    · have due : l.pulseDue = true := by simp [Line.pulseDue, owed, lasted]
      exact ⟨_, exec_pulseCompletion_of_stopped outside held stopped due, modifyLine_at held _⟩
    · have pulsing : l.pulsing = true := by simp [Line.pulsing, owed]
      have faulted := modifyLine_at held (·.faultWith .overcurrent)
      exact ⟨_, l.faultWith .overcurrent, exec_lineFault_of_overcurrent outside held pulsing, by rw [State.raise_lines, faulted],
        rfl, rfl, rfl, rfl, rfl⟩

end Sys2Proof.Machine
end

