-- ==== Sys2Proof/Proofs/Attention.lean ====
section
/-! SUPPORT. What ATTENTION leaves of the Attention Unit, what a reader makes of a two-byte word and of a class set, and the proof about
ATTENTION (R170). -/

namespace Sys2Proof.Machine

/-! ### Serving the Attention Unit -/

/-- A class is set after ATTENTION when it was set and is no member of the clear set. -/
theorem mem_serve_status (a : Attention) (clear : ClassSet) (enable : Option ClassSet) (k : Nat) :
    mem (a.serve clear enable).status k = (mem a.status k && !mem clear k) := by
  simp only [mem, Attention.serve, BitVec.getLsbD_and, BitVec.getLsbD_not]
  by_cases inside : k < 11
  · simp [inside]
  · simp [BitVec.getLsbD_of_ge a.status k (by omega)]

@[simp] theorem serve_some_enable (a : Attention) (clear enable : ClassSet) : (a.serve clear (some enable)).enable = enable := rfl

@[simp] theorem serve_none_enable (a : Attention) (clear : ClassSet) : (a.serve clear none).enable = a.enable := rfl

/-- An empty clear set and no enable set leave the Attention Unit as it is. -/
@[simp] theorem serve_zero_none (a : Attention) : a.serve 0 none = a := by
  simp only [Attention.serve, BitVec.ofNat_eq_ofNat, BitVec.not_zero, BitVec.and_allOnes, Option.getD_none]

theorem exec_attention (clear : ClassSet) (enable : Option ClassSet) (s : State) :
    exec (.attention clear enable) s = execAttention clear enable s := by
  rfl

/-- ATTENTION outside reset. -/
theorem exec_attention_open {s : State} (outside : s.resetHeld = false) (clear : ClassSet) (enable : Option ClassSet) :
    exec (.attention clear enable) s = .next (answered { s with attn := s.attn.serve clear enable } 29 .ok
      (.attention s.attn.status (s.attn.serve clear enable).enable)) := by
  rw [exec_attention, execAttention, takeRequest_open outside]
  rfl

/-! ### Reading a class set -/

/-- What two readers read one after the other. -/
theorem reader_bind {α β : Type} (first : Reader α) (second : α → Reader β) (bytes : List Byte) :
    (first >>= second) bytes = (first bytes).bind fun read => second read.1 read.2 := rfl

/-- The two bytes of a number hold it modulo 65 536. -/
theorem read2_enc2 (w : Nat) (rest : List Byte) : read2 (enc2 w ++ rest) = some (w % 65536, rest) := by
  have word : (BitVec.ofNat 8 (w / 256)).toNat * 256 + (BitVec.ofNat 8 w).toNat = w % 65536 := by
    simp only [BitVec.toNat_ofNat]
    omega
  rw [← word]
  rfl

/-- A word with any of the bits 11 to 15 is no class set. -/
theorem readClasses_enc2_of_high {w : Nat} (high : 2048 ≤ w % 65536) (rest : List Byte) : readClasses (enc2 w ++ rest) = none := by
  rw [readClasses, reader_bind, read2_enc2, Option.bind_some, if_neg (Nat.not_lt.mpr high)]
  rfl

/-- A class set is followed by the bytes after its two. -/
theorem readClasses_enc2_of_low {w : Nat} (low : w % 65536 < 2048) (rest : List Byte) :
    readClasses (enc2 w ++ rest) = some (BitVec.ofNat 11 (w % 65536), rest) := by
  rw [readClasses, reader_bind, read2_enc2, Option.bind_some, if_pos low]
  rfl

/-- An optional field that is present but cannot be read. -/
theorem readOpt_present_of_none {α : Type} {field : Reader α} {rest : List Byte} (unread : field rest = none) :
    readOpt field (1 :: rest) = none := by
  change (field rest).bind (fun read => some (some read.1, read.2)) = none
  rw [unread, Option.bind_none]

/-! ### Decoding ATTENTION -/

/-- The fields of ATTENTION: the clear set, then the optional enable set. -/
theorem readRequest_attention (body : List Byte) : readRequest 29 0 body =
    (readClasses body).bind fun clear => (readOpt readClasses clear.2).bind fun enable =>
      some (.attention clear.1 enable.1, enable.2) := rfl

theorem decodeBody_of_readRequest_none {code table : Nat} {body : List Byte} (unread : readRequest code table body = none) :
    decodeBody code table body = none := by
  rw [decodeBody, unread]

/-- A clear set with any of the bits 11 to 15 does not decode. -/
theorem decodeBody_attention_of_high_clear {w : Nat} (high : 2048 ≤ w % 65536) (rest : List Byte) :
    decodeBody 29 0 (enc2 w ++ rest) = none := by
  apply decodeBody_of_readRequest_none
  rw [readRequest_attention, readClasses_enc2_of_high high, Option.bind_none]

/-- An enable set with any of the bits 11 to 15 does not decode, whatever the clear set. -/
theorem decodeBody_attention_of_high_enable (v : Nat) {w : Nat} (high : 2048 ≤ w % 65536) :
    decodeBody 29 0 (enc2 v ++ 1 :: enc2 w) = none := by
  have noEnable : readOpt readClasses (1 :: enc2 w) = none :=
    readOpt_present_of_none (by simpa using readClasses_enc2_of_high high [])
  rcases Nat.lt_or_ge (v % 65536) 2048 with low | highClear
  · apply decodeBody_of_readRequest_none
    rw [readRequest_attention, readClasses_enc2_of_low low, Option.bind_some, noEnable, Option.bind_none]
  · exact decodeBody_attention_of_high_clear highClear _

/-- Settles O59: the unit as served is the one that stands after; a set beyond bit 10 stops the decoder at the clear or the enable set. -/
theorem attentionServes : Obligations.AttentionServes := by
  refine ⟨fun clear enable s outside => ?_, fun w rest high word => ?_, fun v w high word => ?_⟩
  · refine ⟨s.attn.serve clear enable, exec_attention_open outside clear enable, mem_serve_status s.attn clear enable, ?_, ?_, ?_⟩
    · rintro e rfl
      exact serve_some_enable ..
    · rintro rfl
      exact serve_none_enable ..
    · rintro rfl rfl
      exact serve_zero_none _
  · exact decodeBody_attention_of_high_clear (by rwa [Nat.mod_eq_of_lt word]) rest
  · exact decodeBody_attention_of_high_enable v (by rwa [Nat.mod_eq_of_lt word])

end Sys2Proof.Machine
end
